-- ==== Sys2Proof/Word.lean ====
section
/-! DEFINITION. The bit-string types of the N48: what travels in cells, and what the manual numbers in bits. -/

namespace Sys2Proof

/-- One octet of a cell (01 Cells). -/
abbrev Octet := BitVec 8

/-- Sixteen bits: a sample code, a round number, a fault record's value. -/
abbrev Half := BitVec 16

/-- Thirty-two bits: a payload, a stamp, a management value. -/
abbrev Word := BitVec 32

end Sys2Proof
end

