-- ==== Sys2Proof/Config.lean ====
section
/-! DEFINITION. What the part fixes once, and the one free value of the model. -/

namespace Sys2Proof.Config

/-- FREE VALUE (log 2). The outcome of the `n`-th choice that the manual leaves open: which of the
possible orders is taken where blocks' work of one arrival "may be taken in either order"
(R94, R152, R164). It has no body, so nothing can be proved of it. -/
opaque openChoice : Nat → Nat

/-- Report queue capacity (R159). -/
abbrev queueCapacity : Nat := 32

/-- Misalignment window capacity (R113). -/
abbrev windowCapacity : Nat := 64

/-- Consecutive lapses that begin the node-ring break condition (R14). -/
abbrev breakLapses : Nat := 3

/-- Returns that end the node-ring break condition (R14). -/
abbrev breakReturns : Nat := 16

/-- Tower heads counted before the ring rejoins (R17). -/
abbrev rejoinHeads : Nat := 16

/-- Round closes in a run minute (R139). -/
abbrev runMinuteCloses : Nat := 240000

/-- Where a count "stops at 65,535" (R30, R91, R142). -/
abbrev countStop : Nat := 65535

end Sys2Proof.Config
end

