-- ==== Sys2Proof/Syntax.lean ====
section
/-! DEFINITION. The commands of the N48: one constructor per row of spec/opcode_table.json.
The rows give no bits and no fields; each constructor carries what its event carries in the manual
(a cell, a time, a decoded request). -/

namespace Sys2Proof

/-- A cell: eight octets (01 Cells). Octet 0 is kind and attribute, octet 1 the slot number,
octets 2..5 the payload (most significant octet in octet 2), octet 6 the extension, octet 7 the
check. -/
structure Cell where
  kind    : BitVec 4
  attr    : BitVec 4
  slot    : Octet
  payload : Word
  ext     : Octet
  check   : Octet
  deriving DecidableEq, Repr

/-- The parts of a request that every operation carries (R174): claimed authority (extension of
MREQ_A), tag, index (octets 3..5 of MREQ_A), field and value (MREQ_B). -/
structure ReqArgs where
  claimed : Octet
  tag     : Octet
  index   : Half
  field   : Octet
  value   : Word
  deriving DecidableEq, Repr

/-- The commands, in the order of the opcode table. -/
inductive Instr where
  /-- COLD_RESET. Power-up at time `now` (R19, R164). -/
  | coldReset (now : Nat)
  /-- TOWER_HEAD. A cell arrives on the tower port, awaited as a head (R1, R4). -/
  | towerHead (c : Cell) (now : Nat)
  /-- AWAIT_HEAD_TIMEOUT. 2 × the round period estimate has passed since the accepted head (R1). -/
  | awaitHeadTimeout (now : Nat)
  /-- SETPOINT_ARRIVAL. The slot 1 cell arrives on the tower port (R7, R90). -/
  | setpointArrival (c : Cell) (now : Nat)
  /-- DOWNSTREAM_CELL. A later cell arrives on the tower port (R6, R8, R9). -/
  | downstreamCell (c : Cell) (now : Nat)
  /-- FORMAT_FAILURE. A format failure carrying its MREQ_A cell reaches the management unit (R8, R174). -/
  | formatFailure (a : Cell)
  /-- RETURNING_HEAD. A cell arrives on node-in, awaited as the returning head (R10). -/
  | returningHead (c : Cell)
  /-- NODE_SLOT_ARRIVAL. A node slot returns on node-in (R10, R25). -/
  | nodeSlotArrival (c : Cell)
  /-- RESERVED_SLOT_WRITE. The cell of one of slots 4 to 8 returns on node-in and is replaced (R11). -/
  | reservedSlotWrite (c : Cell)
  /-- ROUND_CLOSE. The tail returns on node-in and closes the round (R12). -/
  | roundClose (c : Cell)
  /-- ROUND_LAPSE. The lapse timeout of the round out passes (R13). -/
  | roundLapse (now : Nat)
  /-- RING_BREAK. The lapse counter has reached 3 (R14). -/
  | ringBreak
  /-- RING_BREAK_END. The return count has reached 16 (R14). -/
  | ringBreakEnd
  /-- TOWER_LOSS. The tower-loss timer passes 8 × the estimate (R15). -/
  | towerLoss (now : Nat)
  /-- ISLAND_ROUND. The next island round falls due (R16). -/
  | islandRound (now : Nat)
  /-- REJOIN_TIMEOUT. 8 × the estimate passes in REJOINING with no tower head (R17). -/
  | rejoinTimeout (now : Nat)
  /-- REJOIN_COMPLETE. An island round has closed with the rejoin counter at 16 or more (R17). -/
  | rejoinComplete
  /-- CHANNEL_STALE. The quiet count of channel `ch` has reached stale_rounds at a close (R37). -/
  | channelStale (ch : Fin 128)
  /-- SETPOINT_LOSS. The setpoint quiet count has reached setpoint_hold at a close (R91). -/
  | setpointLoss
  /-- DECIMATION_TICK. The tick counter has reached yaw_decim at a close (R113). -/
  | decimationTick
  /-- AUTOMATIC_START. The start count has reached start_ticks at a tick (R118). -/
  | automaticStart
  /-- RELEASE_END. The release condition is met at a close (R119). -/
  | releaseEnd
  /-- BRAKE_STUCK. The release count has reached release_max without an open brake (R119). -/
  | brakeStuck
  /-- GROUP_B_START. The stagger count has reached stagger (R120). -/
  | groupBStart
  /-- YAW_STALL. The stall count has reached stall_window (R122). -/
  | yawStall
  /-- YAW_OVERTIME. The slew count has reached max_slew in SLEWING (R122). -/
  | yawOvertime
  /-- COAST_END. The coast count has reached coast_rounds (R123). -/
  | coastEnd
  /-- BRAKE_END. The brake count has reached brake_rounds (R123). -/
  | brakeEnd
  /-- IDLE_CONFIRM. The idle count has reached idle_confirm (R126). -/
  | idleConfirm
  /-- UNWIND_BLOCKED. The wait count has reached unwind_wait_max (R126). -/
  | unwindBlocked
  /-- JOG_END. The slew count has reached the jog's rounds (R128). -/
  | jogEnd
  /-- PUMP_START_FAIL. The start count of pump `k` has reached pump_start (R137). -/
  | pumpStartFail (k : Fin 3)
  /-- PUMP_FLOW_FAIL. The low count of pump `k` has reached pump_persist (R138). -/
  | pumpFlowFail (k : Fin 3)
  /-- RUN_MINUTE. The minute count of pump `k` has reached 240,000 (R139). -/
  | runMinute (k : Fin 3)
  /-- THERMAL_STAGE_STEP. The fan up or down count has reached fan_persist (R141). -/
  | thermalStageStep
  /-- FAN_STEP. The commanded stage differs from the wanted stage and the step count has reached fan_step (R142). -/
  | fanStep
  /-- DRY_CONFIRM. The dry count has reached dry_confirm (R146). -/
  | dryConfirm
  /-- ESTOP_ASSERTED. ESTOP_IN becomes asserted (R168). -/
  | estopAsserted
  /-- ESTOP_DEASSERTED. ESTOP_IN becomes deasserted (R168). -/
  | estopDeasserted
  /-- SERVICE_KEY_CHANGE. SERVICE_KEY changes level (R173). -/
  | serviceKeyChange (on : Bool)
  /-- READ. A READ request (R177). -/
  | read (table : Octet) (r : ReqArgs)
  /-- WRITE. A WRITE request (R178) to a field that has no row of its own. -/
  | write (table : Octet) (r : ReqArgs)
  /-- MODE_WRITE. A WRITE request to the mode record, table 15 (R180). -/
  | modeWrite (r : ReqArgs)
  /-- SLOT_MAP_WRITE. A WRITE request to the slot map, table 2 (R23). -/
  | slotMapWrite (r : ReqArgs)
  /-- CHANNEL_CONFIG_WRITE. A WRITE request to the channel table, table 3, or with `remap` to the remap table, table 4 (R39). -/
  | channelConfigWrite (remap : Bool) (r : ReqArgs)
  /-- CURVE_COUNT_WRITE. A WRITE request to a curve's count, table 6 field 0 (R48). -/
  | curveCountWrite (r : ReqArgs)
  /-- LIMIT_WRITE. A WRITE request to the limit table, table 5 (R66, R67). -/
  | limitWrite (r : ReqArgs)
  /-- COMMAND_PLAN_WRITE. A WRITE request to the command plan, table 7 (R182). -/
  | commandPlanWrite (r : ReqArgs)
  /-- SECTION_PRESENT_WRITE. A WRITE request to a section's present flag, table 8 field 0 (R73). -/
  | sectionPresentWrite (r : ReqArgs)
  /-- SECTION_BLIND_WRITE. A WRITE request to section_blind, table 9 field 3 (R70). -/
  | sectionBlindWrite (r : ReqArgs)
  /-- TWIST_WRITE. A WRITE request to twist, table 11 field 0 (R111). -/
  | twistWrite (r : ReqArgs)
  /-- PUMP_PRESENT_WRITE. A WRITE request to a pump's present flag, table 13 field 0 (R148). -/
  | pumpPresentWrite (r : ReqArgs)
  /-- PUMP_STATE_WRITE. A WRITE request to a pump's state, table 13 field 3 (R148). -/
  | pumpStateWrite (r : ReqArgs)
  /-- CAUSE_ENABLE_WRITE. A WRITE request to summary_enable or report_enable, table 14 fields 2 and 3 (R158). -/
  | causeEnableWrite (r : ReqArgs)
  /-- CLEAR. A CLEAR request (R155, R183). -/
  | clear (table : Octet) (r : ReqArgs)
  /-- STATUS_REQUEST. A STATUS request (R185). -/
  | statusRequest (table : Octet) (r : ReqArgs)
  /-- START. The START command (R166). -/
  | start (r : ReqArgs)
  /-- STOP. The STOP command (R167). -/
  | stop (r : ReqArgs)
  /-- RESTART. The RESTART command (R171). -/
  | restart (r : ReqArgs)
  /-- TEST_ENTER. The TEST_ENTER command (R169). -/
  | testEnter (r : ReqArgs)
  /-- TEST_EXIT. The TEST_EXIT command (R169). -/
  | testExit (r : ReqArgs)
  /-- SECTION_RELEASE. The SECTION_RELEASE command (R74). -/
  | sectionRelease (r : ReqArgs)
  /-- SECTION_HOLD. The SECTION_HOLD command (R75). -/
  | sectionHold (r : ReqArgs)
  /-- YAW_RESUME. The YAW_RESUME command (R124). -/
  | yawResume (r : ReqArgs)
  /-- YAW_UNWIND. The YAW_UNWIND command (R125). -/
  | yawUnwind (r : ReqArgs)
  /-- YAW_JOG. The YAW_JOG command (R128). -/
  | yawJog (r : ReqArgs)
  /-- INJECT_VALUE. The INJECT_VALUE command (R170). -/
  | injectValue (r : ReqArgs)
  /-- INJECT_CAUSE. The INJECT_CAUSE command (R162). -/
  | injectCause (r : ReqArgs)
  /-- RELEASE_FORCE. The RELEASE_FORCE command (R170). -/
  | releaseForce (r : ReqArgs)
  /-- UPSTREAM_RESERVED_FORWARD. The cell of one of slots 1 to 3 returns on node-in (R10). -/
  | upstreamReservedForward (c : Cell)
  deriving DecidableEq, Repr

end Sys2Proof
end

