-- ==== Sys2Proof/Decode.lean ====
section
/-! DEFINITION. Words of commands: no row of the opcode table gives bits, so no word spells a command
(log 5). -/

namespace Sys2Proof

/-- The command that a word of the table spells: none, since the table gives no row any bits. -/
def decodeTableWord (_nbits _w : Nat) : Option Instr :=
  none

end Sys2Proof
end

