-- ==== Sys2Proof/Machine/Order.lean ====
section
/-! DEFINITION. Orders of work: how a number names one of the possible orders of a list. -/

namespace Sys2Proof.Machine

/-- The order of the list `l` that the number `n` names: the first element is at position
`n mod length`, and the rest is ordered by `n / length`. Every order has a number. `fuel` is the
length of the list. -/
def arrangeWith {α : Type} : Nat → Nat → List α → List α
  | 0, _, l => l
  | _, _, [] => []
  | _, _, [x] => [x]
  | fuel + 1, n, x :: y :: rest =>
    let l := x :: y :: rest
    let i := n % l.length
    (l.getD i x) :: arrangeWith fuel (n / l.length) (l.eraseIdx i)

/-- The order of `l` named by `n`. -/
def arrange {α : Type} (n : Nat) (l : List α) : List α :=
  arrangeWith l.length n l

end Sys2Proof.Machine
end

