-- ==== Sys2Proof/Machine/State.lean ====
section
/-! DEFINITION. The state of the N48 as plain data, the (empty) reasons to stop, and the state after
a cold reset. Numbers that the manual counts are `Nat`, signed engineering figures are `Int`, and bit
vectors hold what the manual numbers in bits. -/

namespace Sys2Proof.Machine

/-- Reasons for a fault. The manual describes no arrival at which the part stops: a bad cell is
replaced or forwarded (R1) and a request that cannot be taken is answered with a refusal status
(R175). There is therefore no constructor: no meaning raises a fault, which is safe, since nothing is
hidden behind a stop. -/
inductive Fault
  deriving DecidableEq, Repr

/-- Reasons for a refusal by the model. -/
inductive Refusal where
  /-- A command without a meaning yet: raised by `exec`'s own arm only, under the row's mnemonic. Safe:
  the model says nothing about such a command. No arm of this model raises it. -/
  | notModelled (mnemonic : String)
  deriving DecidableEq, Repr

/-! ### Ring interface (01) -/

/-- Ring states (R15 to R17), coded 0, 1, 2 in this order. -/
inductive RingMode | following | island | rejoining
  deriving DecidableEq, Repr

/-- Who sent a round's head (R3). -/
inductive Originator | tower | nacelle
  deriving DecidableEq, Repr

/-- The round out (R3) with the progress of its upstream leg (R10). -/
structure RoundOut where
  number       : Half
  originator   : Originator
  last         : Nat
  openedAt     : Nat
  headReturned : Bool
  nextPos      : Nat
  deriving DecidableEq, Repr

/-- The position count of the tower port while it counts a round (R1). -/
structure TowerCount where
  nextPos   : Nat
  last      : Nat
  forwarded : Bool
  startedAt : Nat
  deriving DecidableEq, Repr

/-- The last accepted tower head (R4, R19). -/
structure LastHead where
  time   : Nat
  number : Half
  last   : Nat
  deriving DecidableEq, Repr

/-- The state of the ring interface (R19). -/
structure Ring where
  mode         : RingMode
  /-- Where the tower-loss timer runs from (R15). -/
  towerTimer   : Nat
  /-- The round period estimate once two heads have been accepted (R5). -/
  estimate     : Option Nat
  lastHead     : Option LastHead
  /-- `none` while the tower port awaits a head (R1). -/
  port         : Option TowerCount
  /-- The MREQ_A held from slot 2 to slot 3 (R8). -/
  heldRequest  : Option Cell
  roundOut     : Option RoundOut
  /-- Number of the head that last left on node-out (R16). -/
  lastHeadOut  : Option Half
  /-- When the next island round falls due (R16). -/
  islandDue    : Nat
  extCount     : Word
  lapses       : Nat
  broken       : Bool
  returns      : Nat
  rejoin       : Nat
  islandPeriod : Nat
  /-- Cells sent on node-out, oldest first (the model's record, log 13). -/
  nodeOut      : List Cell
  /-- Cells sent on the tower port, oldest first (the model's record, log 13). -/
  towerOut     : List Cell
  deriving DecidableEq, Repr

/-! ### Management unit (11) -/

/-- Reply statuses with the codes 0 to 8 of R175 in this order. -/
inductive Status
  | ok | adjusted | refusedFormat | refusedUnknown | refusedState | refusedAuthority
  | refusedIndex | refusedValue | refusedConflict
  deriving DecidableEq, Repr

/-- The reply in preparation (R174, R175): what MREP_A and MREP_B will carry. -/
structure Reply where
  status : Status
  table  : Octet
  index  : Half
  tag    : Octet
  part   : Bool
  value  : Word
  field  : Octet
  deriving DecidableEq, Repr

/-! ### Channel unit (02) -/

inductive Width | wide | narrow
  deriving DecidableEq, Repr

/-- A slot-map window (R20). -/
structure Window where
  enable       : Bool
  base         : Nat
  size         : Nat
  width        : Width
  firstChannel : Fin 128
  interval     : Nat
  deriving DecidableEq, Repr

/-- The low half held between the two slots of a NARROW pair (R26). -/
structure LowHalf where
  slot  : Nat
  ch    : Fin 128
  octet : Octet
  good  : Bool
  deriving DecidableEq, Repr

inductive RawKind | unsigned | signed
  deriving DecidableEq, Repr

inductive RemapAction | invalid | substitute
  deriving DecidableEq, Repr

/-- One remap entry (R33). -/
structure RemapEntry where
  lo         : Int
  hi         : Int
  action     : RemapAction
  substitute : Int
  deriving DecidableEq, Repr

/-- Channel states (R30), coded 0 to 3 in this order. -/
inductive ChanState | empty | live | stale | invalid
  deriving DecidableEq, Repr

/-- One channel: configuration (R29), remap list (R33) and runtime (R30). `gotCode` says that a code
was processed for the channel in the round now open (R37). -/
structure Channel where
  configured  : Bool
  rawKind     : RawKind
  offset      : Int
  gain        : Int
  clampLow    : Int
  clampHigh   : Int
  staleRounds : Nat
  remapCount  : Nat
  remap       : Vector RemapEntry 4
  state       : ChanState
  value       : Int
  lastCode    : Half
  stamp       : Word
  quiet       : Nat
  forced      : Bool
  gotCode     : Bool
  deriving DecidableEq, Repr

/-! ### Curve store (03) -/

/-- One point of a curve (R42). -/
structure Point where
  x : Int
  y : Nat
  deriving DecidableEq, Repr

/-- A curve record (R42). Curve numbers: 0 STACK, 1 COOLANT, 2 MISALIGN, 3 FAN_FF, 4 PUMP_DEMAND. -/
structure Curve where
  count  : Nat
  points : Vector Point 8
  deriving DecidableEq, Repr

/-! ### Limit unit (04) -/

inductive Direction | high | low
  deriving DecidableEq, Repr

/-- Limit actions (R51), coded 0 to 6 in this order. -/
inductive LimitAction
  | report | derateSection | isolateSection | isolateAll | ceiling | yawHold | nacelleStop
  deriving DecidableEq, Repr

/-- Limit levels (R52), coded 0 to 3 in this order. -/
inductive Level | clear | warn | trip | unbound
  deriving DecidableEq, Repr

/-- Targets of evaluations (R52, R54), coded 0 to 2 in this order. -/
inductive Target | clear | warn | trip
  deriving DecidableEq, Repr

/-- One limit record: configuration (R51) and runtime (R52). -/
structure Limit where
  enable      : Bool
  channel     : Fin 128
  direction   : Direction
  warn        : Int
  trip        : Int
  hysteresis  : Nat
  persistence : Nat
  latch       : Bool
  action      : LimitAction
  subject     : Fin 6
  actionValue : Nat
  warnCause   : Option (Fin 128)
  tripCause   : Fin 128
  level       : Level
  target      : Target
  counter     : Nat
  lastValue   : Option Int
  deriving DecidableEq, Repr

/-! ### Section manager (05) and dispatch unit (06) -/

/-- Section states (R71), coded 0 to 3 in this order. -/
inductive SectState | absent | held | online | isolated
  deriving DecidableEq, Repr

/-- One section record: configuration (R69) and runtime (R71). -/
structure Sect where
  present       : Bool
  rating        : Nat
  rampStep      : Nat
  heatsink      : Fin 128
  feedback      : Fin 128
  status        : Fin 128
  state         : SectState
  faultHold     : Bool
  thermal       : Nat
  blind         : Bool
  curveFallback : Bool
  health        : Nat
  capability    : Nat
  deriving DecidableEq, Repr

/-- Ceiling terms (R93), coded 0 to 5 in this order. -/
inductive CeilingTerm | gate | request | cooling | yaw | limit | capability
  deriving DecidableEq, Repr

/-- The converter settings (R70, R89) and the dispatch unit's runtime (R104, R106). -/
structure Power where
  rating        : Nat
  setpointHold  : Nat
  setpointDecay : Nat
  sectionBlind  : Nat
  rEff          : Nat
  quiet         : Nat
  arrived       : Bool
  loss          : Bool
  ceiling       : Nat
  term          : CeilingTerm
  tReq          : Nat
  tCool         : Nat
  tYaw          : Nat
  tLim          : Nat
  capSum        : Nat
  issuedSum     : Nat
  shares        : Vector Nat 6
  issued        : Vector Nat 6
  deriving DecidableEq, Repr

/-! ### Yaw unit (07) -/

inductive ReleaseMode | fixed | feedback
  deriving DecidableEq, Repr

/-- The yaw settings (R107), in the order of its table. -/
structure YawSettings where
  vane            : Fin 128
  heading         : Fin 128
  brake           : Fin 128
  yawDecim        : Nat
  minValid        : Nat
  startMisalign   : Nat
  startTicks      : Nat
  stopMisalign    : Nat
  yawBlind        : Nat
  maxStep         : Nat
  releaseMode     : ReleaseMode
  releaseRounds   : Nat
  releaseMin      : Nat
  releaseMax      : Nat
  stagger         : Nat
  stallWindow     : Nat
  stallMin        : Nat
  maxSlew         : Nat
  coastRounds     : Nat
  brakeRounds     : Nat
  unwindThreshold : Nat
  unwindTarget    : Nat
  twistHard       : Nat
  idleBand        : Nat
  idleConfirm     : Nat
  unwindWaitMax   : Nat
  deriving DecidableEq, Repr

/-- Yaw states, coded 0 to 8 in this order (R185). -/
inductive YawMode
  | parked | releasing | slewing | stopping | braking | unwindWait | unwinding | jogging | held
  deriving DecidableEq, Repr

/-- The phase of UNWINDING and JOGGING. -/
inductive Phase | release | slew
  deriving DecidableEq, Repr

/-- Directions, seen from above. -/
inductive Turn | cw | ccw
  deriving DecidableEq, Repr

/-- The window's judgement (R114), coded 0 to 2 in this order. -/
inductive Judgement | valid | filling | blind
  deriving DecidableEq, Repr

/-- The yaw unit's runtime (Yaw states, R109 to R130). A window entry is a vane value or `none` for
INVALID. -/
structure Yaw where
  mode         : YawMode
  phase        : Phase
  turn         : Turn
  endMark      : Bool
  unwindMark   : Bool
  saved        : Nat
  factor       : Nat
  twist        : Int
  twistKnown   : Bool
  anchor       : Option Nat
  reanchor     : Bool
  headingLost  : Bool
  window       : List (Option Int)
  judgement    : Judgement
  mean         : Option Int
  tickCount    : Nat
  startCount   : Nat
  startPositive : Bool
  releaseCount : Nat
  staggerCount : Nat
  slewCount    : Nat
  stallCount   : Nat
  stallRef     : Int
  groupB       : Bool
  coastCount   : Nat
  brakeCount   : Nat
  idleCount    : Nat
  waitCount    : Nat
  jogRounds    : Nat
  deriving DecidableEq, Repr

/-! ### Cooling unit (08) -/

/-- The cooling settings (R131), in the order of its table. `fanUp` and `fanDown` hold the entries
k = 1..4 at the positions 0..3. -/
structure CoolSettings where
  tin         : Fin 128
  tcab        : Fin 128
  rh          : Fin 128
  blind       : Nat
  pumpFactor  : Vector Nat 4
  flowOk      : Nat
  pumpStart   : Nat
  pumpPersist : Nat
  fanUp       : Vector Int 4
  fanDown     : Vector Int 4
  fanPersist  : Nat
  fanStep     : Nat
  guard       : Int
  emergency   : Int
  guardCap    : Nat
  heatOn      : Int
  heatOff     : Int
  dryMargin   : Int
  dryConfirm  : Nat
  dryLost     : Int
  deriving DecidableEq, Repr

/-- The cooling unit's runtime (R134 to R146). -/
structure Cool where
  required      : Nat
  order         : List (Fin 3)
  coolantFactor : Nat
  blindMark     : Bool
  fallbackMark  : Bool
  factor        : Nat
  thermal       : Nat
  upCount       : Nat
  downCount     : Nat
  wanted        : Nat
  commanded     : Nat
  stepCount     : Nat
  margin        : Option Int
  heater        : Bool
  dry           : Bool
  dryCount      : Nat
  beenDry       : Bool
  deriving DecidableEq, Repr

/-- Pump states (R133), coded 0 to 3 in this order. -/
inductive PumpState | off | starting | running | failed
  deriving DecidableEq, Repr

/-- How a pump failed (R133), coded 0 to 2 in this order. -/
inductive PumpFailure | none | start | flow
  deriving DecidableEq, Repr

/-- One pump record (R133). `cleared` is the model's own: a write of state OFF has cleared the pump of FAILED, and
it has been neither RUNNING nor FAILED since, which R148 asks at its next failure (log 29). -/
structure Pump where
  present     : Bool
  flowChannel : Fin 128
  runMinutes  : Nat
  state       : PumpState
  commanded   : Bool
  startCount  : Nat
  lowCount    : Nat
  minuteCount : Nat
  failure     : PumpFailure
  cleared     : Bool
  deriving DecidableEq, Repr

/-! ### Cause unit (09) -/

/-- The fields of one cause (R151). An unassigned number keeps them at their reset values. -/
structure Cause where
  pending       : Bool
  summaryEnable : Bool
  reportEnable  : Bool
  injected      : Bool
  deriving DecidableEq, Repr

/-- Record actions (R153), coded 0 to 6 in this order. -/
inductive RecAction | none | derate | isolate | ceiling | yawHold | nacelleStop | test
  deriving DecidableEq, Repr

/-- Record subjects (R153); `none` is the absent subject. The kinds are coded 0 to 4 in this order. -/
inductive Subject
  | none | channel (i : Fin 128) | sect (i : Fin 6) | pump (i : Fin 3) | limit (i : Fin 96)
  deriving DecidableEq, Repr

/-- A fault record (R153). -/
structure FaultRecord where
  cause   : Fin 128
  stamp   : Word
  action  : RecAction
  subject : Subject
  value   : Option Half
  deriving DecidableEq, Repr

/-- The report queue (R159), the overflow flag (R161) and whether a record is in delivery between
slots 6 and 7 (R160). -/
structure Reports where
  queue      : List FaultRecord
  overflow   : Bool
  delivering : Bool
  deriving DecidableEq, Repr

/-! ### Supervisor (10) and command plan (11) -/

/-- Nacelle states, coded 0 to 3 in this order (R185). -/
inductive Nacelle | loading | operating | stopped | test
  deriving DecidableEq, Repr

/-- The stop reason (R165). -/
inductive StopReason | none | management | cause (c : Fin 128)
  deriving DecidableEq, Repr

/-- The mode record (R172). -/
structure Mode where
  runEnable     : Bool
  yawAuto       : Bool
  reportHold    : Bool
  coolingManual : Bool
  manualStage   : Nat
  altered       : Bool
  deriving DecidableEq, Repr

structure Supervisor where
  nacelle : Nacelle
  reason  : StopReason
  mode    : Mode
  deriving DecidableEq, Repr

/-- The four local lines (R173); `true` is asserted (for SERVICE_KEY, on). -/
structure Lines where
  stopOut    : Bool
  brakeHold  : Bool
  estopIn    : Bool
  serviceKey : Bool
  deriving DecidableEq, Repr

/-- A command-plan entry (R182). Objects 0..11: SECTION(0..5), YAW, PUMP(0..2), FAN, HEATER. -/
structure PlanEntry where
  enable : Bool
  object : Fin 12
  slot   : Nat
  deriving DecidableEq, Repr

/-! ### The whole machine -/

/-- The state of the N48 and its queue of waiting commands. -/
structure State where
  ring     : Ring
  reply    : Option Reply
  windows  : Vector Window 32
  lowHalf  : Option LowHalf
  channels : Vector Channel 128
  curves   : Vector Curve 5
  limits   : Vector Limit 96
  sects    : Vector Sect 6
  power    : Power
  yawCfg   : YawSettings
  yaw      : Yaw
  coolCfg  : CoolSettings
  cool     : Cool
  pumps    : Vector Pump 3
  causes   : Vector Cause 128
  reports  : Reports
  sup      : Supervisor
  lines    : Lines
  plan     : Vector PlanEntry 16
  /-- The model's own: open choices already made, taken first (log 2). -/
  choices  : List Nat
  /-- The model's own: how many choices were drawn from `Config.openChoice` (log 2). -/
  choiceNo : Nat
  /-- The model's own: the commands that wait, oldest first. -/
  pending  : List Instr
  deriving DecidableEq, Repr

/-! ### The values after a cold reset -/

/-- R19. The timer starts at the reset, at time 0 here (log 3). -/
def Ring.cold : Ring where
  mode := .following
  towerTimer := 0
  estimate := none
  lastHead := none
  port := none
  heldRequest := none
  roundOut := none
  lastHeadOut := none
  islandDue := 0
  extCount := 0
  lapses := 0
  broken := false
  returns := 0
  rejoin := 0
  islandPeriod := 250
  nodeOut := []
  towerOut := []

/-- R20. -/
def Window.cold : Window where
  enable := false
  base := 9
  size := 1
  width := .wide
  firstChannel := 0
  interval := 1

/-- The remap list is empty at cold reset (R29). The fields of its inactive entries are a DESIGN
CHOICE (log 7). -/
def RemapEntry.cold : RemapEntry where
  lo := 0
  hi := 0
  action := .invalid
  substitute := 0

/-- R29, R40. -/
def Channel.cold : Channel where
  configured := false
  rawKind := .unsigned
  offset := 0
  gain := 4096
  clampLow := -32768
  clampHigh := 32767
  staleRounds := 40
  remapCount := 0
  remap := Vector.replicate 4 RemapEntry.cold
  state := .empty
  value := 0
  lastCode := 0
  stamp := 0
  quiet := 0
  forced := false
  gotCode := false

/-- R42. -/
def Curve.cold : Curve where
  count := 0
  points := Vector.replicate 8 { x := 0, y := 0 }

/-- R51, and the runtime of a disabled limit (R52). -/
def Limit.cold : Limit where
  enable := false
  channel := 0
  direction := .high
  warn := 32767
  trip := 32767
  hysteresis := 0
  persistence := 1
  latch := false
  action := .report
  subject := 0
  actionValue := 256
  warnCause := none
  tripCause := 96
  level := .clear
  target := .clear
  counter := 0
  lastValue := none

/-- R69, R71. -/
def Sect.cold : Sect where
  present := false
  rating := 0
  rampStep := 20
  heatsink := 0
  feedback := 0
  status := 0
  state := .absent
  faultHold := false
  thermal := 256
  blind := false
  curveFallback := false
  health := 256
  capability := 0

/-- R70, R89, R106. -/
def Power.cold : Power where
  rating := 0
  setpointHold := 400
  setpointDecay := 2
  sectionBlind := 128
  rEff := 0
  quiet := 0
  arrived := false
  loss := false
  ceiling := 0
  term := .gate
  tReq := 0
  tCool := 0
  tYaw := 0
  tLim := 0
  capSum := 0
  issuedSum := 0
  shares := Vector.replicate 6 0
  issued := Vector.replicate 6 0

/-- R107. -/
def YawSettings.cold : YawSettings where
  vane := 0
  heading := 0
  brake := 0
  yawDecim := 400
  minValid := 48
  startMisalign := 80
  startTicks := 30
  stopMisalign := 10
  yawBlind := 192
  maxStep := 50
  releaseMode := .fixed
  releaseRounds := 2000
  releaseMin := 400
  releaseMax := 8000
  stagger := 800
  stallWindow := 8000
  stallMin := 5
  maxSlew := 480000
  coastRounds := 1200
  brakeRounds := 2000
  unwindThreshold := 7200
  unwindTarget := 720
  twistHard := 10800
  idleBand := 50
  idleConfirm := 4000
  unwindWaitMax := 240000

/-- R130. Phase and direction cleared, the sign, the stall reference and the jog's rounds: log 9. -/
def Yaw.cold : Yaw where
  mode := .held
  phase := .release
  turn := .cw
  endMark := false
  unwindMark := false
  saved := 192
  factor := 192
  twist := 0
  twistKnown := false
  anchor := none
  reanchor := false
  headingLost := false
  window := []
  judgement := .filling
  mean := none
  tickCount := 0
  startCount := 0
  startPositive := true
  releaseCount := 0
  staggerCount := 0
  slewCount := 0
  stallCount := 0
  stallRef := 0
  groupB := false
  coastCount := 0
  brakeCount := 0
  idleCount := 0
  waitCount := 0
  jogRounds := 0

/-- R131. -/
def CoolSettings.cold : CoolSettings where
  tin := 0
  tcab := 0
  rh := 0
  blind := 128
  pumpFactor := #v[0, 102, 256, 256]
  flowOk := 200
  pumpStart := 8000
  pumpPersist := 2000
  fanUp := #v[350, 380, 410, 440]
  fanDown := #v[330, 360, 390, 420]
  fanPersist := 4000
  fanStep := 8000
  guard := 40
  emergency := 450
  guardCap := 1
  heatOn := 30
  heatOff := 60
  dryMargin := 50
  dryConfirm := 240000
  dryLost := 20

/-- The cold column of the cooling unit's reset table (R150). -/
def Cool.cold : Cool where
  required := 0
  order := []
  coolantFactor := 128
  blindMark := true
  fallbackMark := false
  factor := 0
  thermal := 4
  upCount := 0
  downCount := 0
  wanted := 0
  commanded := 0
  stepCount := 0
  margin := none
  heater := true
  dry := false
  dryCount := 0
  beenDry := false

/-- R133. -/
def Pump.cold : Pump where
  present := false
  flowChannel := 0
  runMinutes := 0
  state := .off
  commanded := false
  startCount := 0
  lowCount := 0
  minuteCount := 0
  cleared := false
  failure := .none

/-- R151, R164. -/
def Cause.cold : Cause where
  pending := false
  summaryEnable := true
  reportEnable := true
  injected := false

/-- R172. -/
def Mode.cold : Mode where
  runEnable := false
  yawAuto := false
  reportHold := false
  coolingManual := false
  manualStage := 0
  altered := false

/-- R182. -/
def PlanEntry.cold : PlanEntry where
  enable := false
  object := 0
  slot := 9

/-- Every table and runtime at its cold-reset value, before any cause rises. The levels of the two
input lines are a DESIGN CHOICE (log 6). -/
def State.coldBase : State where
  ring := Ring.cold
  reply := none
  windows := Vector.replicate 32 Window.cold
  lowHalf := none
  channels := Vector.replicate 128 Channel.cold
  curves := Vector.replicate 5 Curve.cold
  limits := Vector.replicate 96 Limit.cold
  sects := Vector.replicate 6 Sect.cold
  power := Power.cold
  yawCfg := YawSettings.cold
  yaw := Yaw.cold
  coolCfg := CoolSettings.cold
  cool := Cool.cold
  pumps := Vector.replicate 3 Pump.cold
  causes := Vector.replicate 128 Cause.cold
  reports := { queue := [], overflow := false, delivering := false }
  sup := { nacelle := .loading, reason := .none, mode := Mode.cold }
  lines := { stopOut := true, brakeHold := true, estopIn := false, serviceKey := false }
  plan := Vector.replicate 16 PlanEntry.cold
  choices := []
  choiceNo := 0
  pending := []

/-- The record of TWIST_UNKNOWN (56) after a cold reset (R111, R129, R164). -/
def FaultRecord.coldTwist : FaultRecord where
  cause := 56
  stamp := 0
  action := .none
  subject := .none
  value := none

/-- The record of COOLING_BLIND (66) after a cold reset (R140, R149, R164). -/
def FaultRecord.coldCooling : FaultRecord where
  cause := 66
  stamp := 0
  action := .derate
  subject := .channel 0
  value := some 128

/-- The machine right after a cold reset: the cold values, and TWIST_UNKNOWN and COOLING_BLIND risen,
since their conditions hold (R164). The order of their two records is open (log 2). -/
def State.reset : State :=
  { State.coldBase with
    causes := (State.coldBase.causes.set 56 { Cause.cold with pending := true }).set 66
      { Cause.cold with pending := true }
    reports :=
      { queue := arrange (Config.openChoice 0) [FaultRecord.coldTwist, FaultRecord.coldCooling]
        overflow := false
        delivering := false }
    choiceNo := 1 }

end Sys2Proof.Machine
end

