-- ==== Sys2Proof/Machine/Ops.lean ====
section
/-! DEFINITION. The named operations over the state that several blocks use: table updates, open
orders of work, raising a cause, reading a channel, and the arrivals that one block makes at another
(yaw to HELD, sections to HELD or ISOLATED, the stop demand). -/

namespace Sys2Proof.Machine

/-! ### Cause numbers (R151) -/

namespace CauseNo
abbrev towerLoss : Fin 128 := 0
abbrev ringBreak : Fin 128 := 1
abbrev cellCheck : Fin 128 := 2
abbrev roundSequence : Fin 128 := 3
abbrev roundLapse : Fin 128 := 4
abbrev slotClash : Fin 128 := 5
abbrev externalStop : Fin 128 := 6
abbrev channelStale : Fin 128 := 16
abbrev channelInvalid : Fin 128 := 17
abbrev pairIncomplete : Fin 128 := 18
abbrev channelClamped : Fin 128 := 19
abbrev limitUnbound : Fin 128 := 20
abbrev setpointLoss : Fin 128 := 32
abbrev sectionFault : Fin 128 := 33
abbrev sectionDropped : Fin 128 := 34
abbrev sectionBlind : Fin 128 := 35
abbrev brakeStuck : Fin 128 := 48
abbrev yawStall : Fin 128 := 49
abbrev yawOvertime : Fin 128 := 50
abbrev headingInvalid : Fin 128 := 51
abbrev headingJump : Fin 128 := 52
abbrev twistHard : Fin 128 := 53
abbrev unwindBlocked : Fin 128 := 54
abbrev vaneBlind : Fin 128 := 55
abbrev twistUnknown : Fin 128 := 56
abbrev pumpFail : Fin 128 := 64
abbrev pumpsShort : Fin 128 := 65
abbrev coolingBlind : Fin 128 := 66
abbrev dryLost : Fin 128 := 67
abbrev reportOverflow : Fin 128 := 80
abbrev testActive : Fin 128 := 81
end CauseNo

/-! ### Updates of one entry of a table -/

/-- The state with channel `i` replaced. -/
def State.setChannel (s : State) (i : Fin 128) (c : Channel) : State :=
  { s with channels := s.channels.set i c }

/-- The state with window `i` replaced. -/
def State.setWindow (s : State) (i : Fin 32) (w : Window) : State :=
  { s with windows := s.windows.set i w }

/-- The state with curve `i` replaced. -/
def State.setCurve (s : State) (i : Fin 5) (c : Curve) : State :=
  { s with curves := s.curves.set i c }

/-- The state with limit `i` replaced. -/
def State.setLimit (s : State) (i : Fin 96) (l : Limit) : State :=
  { s with limits := s.limits.set i l }

/-- The state with section `i` replaced. -/
def State.setSect (s : State) (i : Fin 6) (x : Sect) : State :=
  { s with sects := s.sects.set i x }

/-- The state with pump `i` replaced. -/
def State.setPump (s : State) (i : Fin 3) (p : Pump) : State :=
  { s with pumps := s.pumps.set i p }

/-- The state with cause `i` replaced. -/
def State.setCause (s : State) (i : Fin 128) (c : Cause) : State :=
  { s with causes := s.causes.set i c }

/-- The state with command-plan entry `i` replaced. -/
def State.setPlan (s : State) (i : Fin 16) (p : PlanEntry) : State :=
  { s with plan := s.plan.set i p }

/-! ### Open orders of work (log 2) -/

/-- The next open choice: the first of the choices already made, or the free value of this number. -/
def State.nextChoice (s : State) : Nat :=
  match s.choices with
  | n :: _ => n
  | [] => Config.openChoice s.choiceNo

/-- The state once the next open choice has been made. -/
def State.choiceMade (s : State) : State :=
  match s.choices with
  | _ :: rest => { s with choices := rest }
  | [] => { s with choiceNo := s.choiceNo + 1 }

/-- Take the works named by `l` one after another, in an order the manual leaves open. With fewer than
two works there is nothing to choose. -/
def inOpenOrder {α : Type} (l : List α) (f : α → State → State) (s : State) : State :=
  match l with
  | [] => s
  | [x] => f x s
  | x :: y :: rest => (arrange s.nextChoice (x :: y :: rest)).foldl (fun t a => f a t) s.choiceMade

/-! ### Figures of fault records (R153) -/

/-- An unsigned figure in 16 bits, the nearer end when it does not fit. -/
def unsignedFigure (n : Nat) : Half :=
  BitVec.ofNat 16 (min n 65535)

/-- A signed figure in 16 bits, the nearer end when it does not fit. -/
def signedFigure (z : Int) : Half :=
  BitVec.ofInt 16 (max (-32768) (min z 32767))

/-! ### Raising a cause (R152, R159, R161) -/

/-- A fault record is built for the report queue. A full queue does not store it: the overflow flag goes
ON, and REPORT_OVERFLOW rises, whose own record meets the full queue as well (R161). -/
def fileRecord (r : FaultRecord) (s : State) : State :=
  if s.reports.queue.length < Config.queueCapacity then
    { s with reports := { s.reports with queue := s.reports.queue ++ [r] } }
  else
    { s with
      reports := { s.reports with overflow := true }
      causes := s.causes.set CauseNo.reportOverflow
        { s.causes[CauseNo.reportOverflow] with pending := true } }

/-- A block raises cause `c` with the record fields it supplies (R152). A cause already pending changes
nothing. -/
def raise (c : Fin 128) (action : RecAction) (subject : Subject) (value : Option Half) (s : State) : State :=
  if s.causes[c].pending then s
  else
    let t := s.setCause c { s.causes[c] with pending := true }
    if s.causes[c].reportEnable then
      fileRecord { cause := c, stamp := s.ring.extCount, action, subject, value } t
    else t

/-! ### Reading a channel (R38) -/

/-- A channel is usable when its state is LIVE. -/
def usable (s : State) (ch : Fin 128) : Bool :=
  s.channels[ch].state = .live

/-- The engineering value of a usable channel. -/
def chanValue (s : State) (ch : Fin 128) : Option Int :=
  if usable s ch then some s.channels[ch].value else none

/-! ### Yaw states: the brake and HELD (R117, R124, R173) -/

/-- The states whose row of R117 has no BRAKE_RELEASE. -/
def brakeApplied : YawMode → Bool
  | .parked | .braking | .unwindWait | .held => true
  | .releasing | .slewing | .stopping | .unwinding | .jogging => false

/-- The yaw unit's runtime is replaced, and BRAKE_HOLD follows its brake demand (R117, R173). -/
def putYaw (y : Yaw) (s : State) : State :=
  { s with yaw := y, lines := { s.lines with brakeHold := brakeApplied y.mode } }

/-- The movement counts go to 0 (R124). -/
def Yaw.countsCleared (y : Yaw) : Yaw :=
  { y with
    releaseCount := 0, staggerCount := 0, slewCount := 0, stallCount := 0
    coastCount := 0, brakeCount := 0, idleCount := 0, waitCount := 0 }

/-- The unwind mark goes off, and F_y takes the saved factor if it was on (R115). -/
def Yaw.unwindLeft (y : Yaw) : Yaw :=
  { y with factor := if y.unwindMark then y.saved else y.factor, unwindMark := false }

/-- The yaw goes to HELD at once from any other state (R124). -/
def yawToHeld (s : State) : State :=
  if s.yaw.mode = .held then s
  else putYaw { s.yaw.unwindLeft.countsCleared with mode := .held, endMark := false, groupB := false } s

/-! ### Sections: hold and isolate (R79, R81) -/

/-- Every ONLINE section becomes HELD (R81). -/
def holdOnline (s : State) : State :=
  { s with sects := s.sects.map fun x => if x.state = .online then { x with state := .held } else x }

/-- An isolation arrival for section `i` (R79). -/
def isolateSect (i : Fin 6) (s : State) : State :=
  let x := s.sects[i]
  if x.state = .online ∨ x.state = .held then s.setSect i { x with state := .isolated } else s

/-! ### The nacelle state and the stop demand (R165, R167) -/

/-- The nacelle state and stop reason change, and STOP_OUT with them: asserted in every state but
OPERATING (R173). -/
def putNacelle (n : Nacelle) (reason : StopReason) (s : State) : State :=
  { s with
    sup := { s.sup with nacelle := n, reason := reason }
    lines := { s.lines with stopOut := decide (n ≠ .operating) } }

/-- A stop reason that does not permit the yaw: a cause of group G3 YAW, or RING_BREAK (R116). -/
def barsYaw : StopReason → Bool
  | .cause c => decide (c.val / 16 = 3) || decide (c = CauseNo.ringBreak)
  | .none | .management => false

/-- The nacelle enters STOPPED from OPERATING: ONLINE sections are held (R81), and the yaw goes to HELD
when the reason does not permit it (R124). -/
def enterStopped (reason : StopReason) (s : State) : State :=
  let t := holdOnline (putNacelle .stopped reason s)
  if barsYaw reason then yawToHeld t else t

/-- A stop demand (R167): it stops an OPERATING nacelle and is otherwise kept out of the state. -/
def stopDemand (reason : StopReason) (s : State) : State :=
  if s.sup.nacelle = .operating then enterStopped reason s else s

/-- The part clears run_enable by itself, and sets altered when it was ON (R172). -/
def clearRunEnable (s : State) : State :=
  let m := s.sup.mode
  { s with sup := { s.sup with mode :=
      { m with runEnable := false, altered := m.altered || m.runEnable } } }

/-- The part clears yaw_auto by itself, and sets altered when it was ON (R172). -/
def clearYawAuto (s : State) : State :=
  let m := s.sup.mode
  { s with sup := { s.sup with mode :=
      { m with yawAuto := false, altered := m.altered || m.yawAuto } } }

end Sys2Proof.Machine
end

