-- ==== Sys2Proof/Machine/Operands.lean ====
section
/-! DEFINITION. Operand forms: cells and their check octet, the coding of management values, raw codes
and their scaling, curve evaluation, power fractions, headings and angles. -/

namespace Sys2Proof.Machine

/-! ### Integers -/

/-- `z` clamped into `lo..hi`. -/
def clampInt (lo hi z : Int) : Int :=
  max lo (min z hi)

/-- A 32-bit value read as two's complement (R179). -/
def signedOf (w : Word) : Int :=
  w.toInt

/-- A figure coded in 32 bits: unsigned as it is, signed in two's complement (R179). -/
def wordOf (z : Int) : Word :=
  BitVec.ofInt 32 z

/-- OFF or FALSE is 0, ON or TRUE is 1 (R179). -/
def wordOfBool (b : Bool) : Word :=
  if b then 1 else 0

/-- An absent last_value, anchor or mean and an unknown dew margin are coded −2,147,483,648 (R179). -/
def wordOfOption : Option Int → Word
  | some z => wordOf z
  | none => wordOf (-2147483648)

/-! ### Cells (01 Cells, R1, R2) -/

namespace Kind
abbrev idle : BitVec 4 := 0x0
abbrev head : BitVec 4 := 0x1
abbrev setpoint : BitVec 4 := 0x2
abbrev mreqA : BitVec 4 := 0x3
abbrev mreqB : BitVec 4 := 0x4
abbrev mrepA : BitVec 4 := 0x5
abbrev mrepB : BitVec 4 := 0x6
abbrev reportA : BitVec 4 := 0x7
abbrev reportB : BitVec 4 := 0x8
abbrev status : BitVec 4 := 0x9
abbrev sample : BitVec 4 := 0xA
abbrev command : BitVec 4 := 0xB
end Kind

/-- One bit of the CRC-8 register's shift, generator x⁸+x²+x+1 (R1). -/
def crcShift (r : Octet) : Octet :=
  if r.msb then (r <<< 1) ^^^ 0x07 else r <<< 1

/-- The CRC-8 register after one octet, most significant bit first (R1). -/
def crcOctet (r b : Octet) : Octet :=
  crcShift (crcShift (crcShift (crcShift (crcShift (crcShift (crcShift (crcShift (r ^^^ b))))))))

/-- The CRC-8 of a list of octets in order, from the initial value 0x00 (R1). -/
def crc8 (l : List Octet) : Octet :=
  l.foldl crcOctet 0x00

/-- Octets 0 to 6 of a cell. -/
def cellOctets (c : Cell) : List Octet :=
  [c.kind ++ c.attr, c.slot, c.payload.extractLsb' 24 8, c.payload.extractLsb' 16 8,
    c.payload.extractLsb' 8 8, c.payload.extractLsb' 0 8, c.ext]

/-- The check octet a cell should carry (R1). -/
def cellCrc (c : Cell) : Octet :=
  crc8 (cellOctets c)

/-- A received cell passes when its check octet is right and its slot number is its position (R1). -/
def cellPasses (c : Cell) (pos : Nat) : Bool :=
  c.check = cellCrc c && c.slot.toNat = pos

/-- A cell the N48 writes: the fields of its kind, and the check octet (R2). -/
def writeCell (kind attr : BitVec 4) (slot : Nat) (payload : Word) (ext : Octet) : Cell :=
  let c : Cell := { kind, attr, slot := BitVec.ofNat 8 slot, payload, ext, check := 0 }
  { c with check := cellCrc c }

/-- The IDLE cell of a slot. -/
def idleCell (slot : Nat) : Cell :=
  writeCell Kind.idle 0 slot 0 0

/-- A payload of four octets, octet 2 first. -/
def payloadOf (o2 o3 o4 o5 : Octet) : Word :=
  o2 ++ o3 ++ o4 ++ o5

/-- The round number a head carries (payload octets 2..3). -/
def roundNumber (c : Cell) : Half :=
  c.payload.extractLsb' 16 16

/-- The last slot a head names (payload octet 4). -/
def lastSlot (c : Cell) : Nat :=
  (c.payload.extractLsb' 8 8).toNat

/-- The attribute code of an originator: 1 TOWER, 2 NACELLE. -/
def originatorCode : Originator → BitVec 4
  | .tower => 1
  | .nacelle => 2

/-- The head cell of a round. -/
def headCell (o : Originator) (number : Half) (last : Nat) : Cell :=
  writeCell Kind.head (originatorCode o) 0 (number ++ BitVec.ofNat 8 last ++ (0 : Octet)) 0

/-- The value carried by CELL_CHECK and SLOT_CLASH: 256 × port + position, port 0 the tower port and
1 node-in (R18). -/
def portFigure (port pos : Nat) : Option Half :=
  some (unsignedFigure (256 * port + pos))

/-- A tower head is accepted when it also is of kind HEAD, from the TOWER, with last slot 9..255 (R4). -/
def isTowerHead (c : Cell) : Bool :=
  c.kind = Kind.head && c.attr = originatorCode .tower && decide (9 ≤ lastSlot c)

/-- What a cell handed to the channel unit is (R25, R26). -/
inductive SlotContent where
  | sample (code : Half) (good : Bool)
  | idle
  | wrongKind
  | absent
  deriving DecidableEq, Repr

/-- A node slot's cell classed by its check and kind (R2, R25). Node quality is GOOD for extension 0x01
only. -/
def slotContent (c : Cell) (pos : Nat) : SlotContent :=
  if !cellPasses c pos then .absent
  else if c.kind = Kind.sample then .sample (c.payload.extractLsb' 0 16) (c.ext = 0x01)
  else if c.kind = Kind.idle then .idle
  else .wrongKind

/-! ### Codes of enumerations (R175, R179, R185) -/

def ringCode : RingMode → Nat
  | .following => 0
  | .island => 1
  | .rejoining => 2

def nacelleCode : Nacelle → Nat
  | .loading => 0
  | .operating => 1
  | .stopped => 2
  | .test => 3

def yawCode : YawMode → Nat
  | .parked => 0
  | .releasing => 1
  | .slewing => 2
  | .stopping => 3
  | .braking => 4
  | .unwindWait => 5
  | .unwinding => 6
  | .jogging => 7
  | .held => 8

def statusCode : Status → Nat
  | .ok => 0
  | .adjusted => 1
  | .refusedFormat => 2
  | .refusedUnknown => 3
  | .refusedState => 4
  | .refusedAuthority => 5
  | .refusedIndex => 6
  | .refusedValue => 7
  | .refusedConflict => 8

def widthCode : Width → Nat
  | .wide => 0
  | .narrow => 1

def rawKindCode : RawKind → Nat
  | .unsigned => 0
  | .signed => 1

def remapActionCode : RemapAction → Nat
  | .invalid => 0
  | .substitute => 1

def chanStateCode : ChanState → Nat
  | .empty => 0
  | .live => 1
  | .stale => 2
  | .invalid => 3

def directionCode : Direction → Nat
  | .high => 0
  | .low => 1

def limitActionCode : LimitAction → Nat
  | .report => 0
  | .derateSection => 1
  | .isolateSection => 2
  | .isolateAll => 3
  | .ceiling => 4
  | .yawHold => 5
  | .nacelleStop => 6

def levelCode : Level → Nat
  | .clear => 0
  | .warn => 1
  | .trip => 2
  | .unbound => 3

def targetCode : Target → Nat
  | .clear => 0
  | .warn => 1
  | .trip => 2

def sectStateCode : SectState → Nat
  | .absent => 0
  | .held => 1
  | .online => 2
  | .isolated => 3

def termCode : CeilingTerm → Nat
  | .gate => 0
  | .request => 1
  | .cooling => 2
  | .yaw => 3
  | .limit => 4
  | .capability => 5

def phaseCode : Phase → Nat
  | .release => 0
  | .slew => 1

def turnCode : Turn → Nat
  | .cw => 0
  | .ccw => 1

def judgementCode : Judgement → Nat
  | .valid => 0
  | .filling => 1
  | .blind => 2

def releaseModeCode : ReleaseMode → Nat
  | .fixed => 0
  | .feedback => 1

def pumpStateCode : PumpState → Nat
  | .off => 0
  | .starting => 1
  | .running => 2
  | .failed => 3

def pumpFailureCode : PumpFailure → Nat
  | .none => 0
  | .start => 1
  | .flow => 2

/-- Codes of record actions in REPORT_A (R153). -/
def recActionCode : RecAction → Nat
  | .none => 0
  | .derate => 1
  | .isolate => 2
  | .ceiling => 3
  | .yawHold => 4
  | .nacelleStop => 5
  | .test => 6

/-- Subject kind and index in REPORT_B (R153). -/
def subjectCode : Subject → Octet × Octet
  | .none => (0, 0)
  | .channel i => (1, BitVec.ofNat 8 i.val)
  | .sect i => (2, BitVec.ofNat 8 i.val)
  | .pump i => (3, BitVec.ofNat 8 i.val)
  | .limit i => (4, BitVec.ofNat 8 i.val)

/-- Codes of the stop reason: the cause number, 254 MANAGEMENT, 255 none (R179). -/
def reasonCode : StopReason → Nat
  | .cause c => c.val
  | .management => 254
  | .none => 255

/-- Codes of an optional cause number: 255 for none (R179). -/
def causeCode : Option (Fin 128) → Nat
  | some c => c.val
  | none => 255

/-! ### Forms of written values (R178 steps 5 and 6, R179) -/

/-- How the value of a writable field is coded and ranged. -/
inductive Form where
  /-- A signed number, clamped into its range. -/
  | signed (lo hi : Int)
  /-- An unsigned number, clamped into its range. -/
  | unsigned (lo hi : Nat)
  /-- An enumerated field of `n` values, coded 0 to n − 1. -/
  | enumerated (n : Nat)
  /-- A field with a fixed set of numbers, written as the number itself. -/
  | fixedSet (l : List Nat)
  /-- A read-only field. -/
  | readOnly
  deriving DecidableEq, Repr

/-- The figure a written value stands for, and whether it was clamped; `none` when an enumerated value is
not in its set. -/
def Form.take : Form → Word → Option (Int × Bool)
  | .signed lo hi, w =>
    let z := signedOf w
    some (clampInt lo hi z, decide (clampInt lo hi z ≠ z))
  | .unsigned lo hi, w =>
    let z : Int := w.toNat
    some (clampInt lo hi z, decide (clampInt lo hi z ≠ z))
  | .enumerated n, w => if w.toNat < n then some (w.toNat, false) else none
  | .fixedSet l, w => if w.toNat ∈ l then some (w.toNat, false) else none
  | .readOnly, _ => none

/-! ### Raw codes, remapping and scaling (R33 to R35) -/

/-- A code read by raw_kind (R29, R33). -/
def rawValue (k : RawKind) (code : Half) : Int :=
  match k with
  | .unsigned => code.toNat
  | .signed => code.toInt

/-- `n / 4096` rounded half away from zero (R34). -/
def gainRound (n : Int) : Int :=
  if 0 ≤ n then (n + 2048).fdiv 4096 else -((-n + 2048).fdiv 4096)

/-- The engineering result of a code before the clamp (R34). -/
def scaled (c : Channel) (code : Half) : Int :=
  gainRound ((rawValue c.rawKind code - c.offset) * c.gain)

/-- The active remap entries in index order (R33). -/
def activeRemap (c : Channel) : List RemapEntry :=
  c.remap.toList.take c.remapCount

/-- The first active remap entry that matches a code (R33). -/
def remapMatch (c : Channel) (code : Half) : Option RemapEntry :=
  (activeRemap c).find? fun e => decide (e.lo ≤ rawValue c.rawKind code ∧ rawValue c.rawKind code ≤ e.hi)

/-! ### Curves (R42, R45) -/

/-- The active points of a curve. -/
def activePoints (c : Curve) : List Point :=
  c.points.toList.take c.count

/-- A curve is set when its count is 2 or more (R42). -/
def Curve.isSet (c : Curve) : Bool :=
  decide (2 ≤ c.count)

/-- The figure of a segment from point `p` to point `q` at `x` (R45), the division floor. -/
def segmentAt (p q : Point) (x : Int) : Int :=
  p.y + ((x - p.x) * ((q.y : Int) - p.y)).fdiv (q.x - p.x)

/-- Evaluation along a list of points: the first ordinate at or below the first abscissa, the last one
from the last abscissa on, and the segment's figure between (R45). -/
def evalPoints : List Point → Int → Int
  | [], _ => 0
  | [p], _ => p.y
  | p :: q :: rest, x =>
    if x ≤ p.x then p.y
    else if x < q.x then segmentAt p q x
    else evalPoints (q :: rest) x

/-- A set curve's answer, `none` when it is unset (R45, R50). -/
def evalCurve (c : Curve) (x : Int) : Option Nat :=
  if c.isSet then some (evalPoints (activePoints c) x).toNat else none

namespace CurveNo
abbrev stack : Fin 5 := 0
abbrev coolant : Fin 5 := 1
abbrev misalign : Fin 5 := 2
abbrev fanFf : Fin 5 := 3
abbrev pumpDemand : Fin 5 := 4
end CurveNo

/-- The power fraction of `kw` against the nacelle rating, in 1/256, clamped to 0..1,024 (R44). -/
def powerFraction (kw rating : Nat) : Nat :=
  if rating = 0 then 0 else min (256 * kw / rating) 1024

/-! ### Angles (R108, R109) -/

/-- The misalignment of a vane value: outside −1,800..1,799 the nearer end (R108). -/
def misalignment (v : Int) : Int :=
  clampInt (-1800) 1799 v

/-- The heading of a heading value, reduced modulo 3,600 (R108). -/
def headingOf (v : Int) : Nat :=
  (v.emod 3600).toNat

/-- The step from the anchor to a heading, the shorter way round (R109). -/
def headingStep (h anchor : Nat) : Int :=
  ((h : Int) - anchor + 1800).emod 3600 - 1800

/-- Twist stops at the ends of its 32-bit signed range (R109). -/
def clampTwist (z : Int) : Int :=
  clampInt (-2147483648) 2147483647 z

/-- Twist in whole degrees, truncated toward zero (R129). -/
def twistDegrees (twist : Int) : Option Half :=
  some (signedFigure (twist.tdiv 10))

/-- A turn in direction `d` increases |twist| (R108). -/
def increasesTwist (d : Turn) (twist : Int) : Bool :=
  match d with
  | .cw => decide (0 ≤ twist)
  | .ccw => decide (twist ≤ 0)

/-- The hard condition: |twist| is at or above twist_hard (R112). -/
def hardTwist (cfg : YawSettings) (twist : Int) : Bool :=
  decide (cfg.twistHard ≤ twist.natAbs)

/-! ### Dew point (R144) -/

/-- The cabinet dew point; RH outside 0..1,000 is taken as the nearer end (R132, R144). -/
def dewPoint (tcab rh : Int) : Int :=
  tcab - (1000 - clampInt 0 1000 rh).fdiv 5

/-! ### Authority (R176) -/

/-- The levels in ascending order: 1 OPERATOR, 2 SERVICE, 3 FACTORY. -/
inductive Authority | operator | service | factory
  deriving DecidableEq, Repr

def Authority.rank : Authority → Nat
  | .operator => 1
  | .service => 2
  | .factory => 3

/-- The claimed authority named by its code (R174). -/
def claimedAuthority (code : Octet) : Option Authority :=
  if code = 1 then some .operator
  else if code = 2 then some .service
  else if code = 3 then some .factory
  else none

/-- The effective authority: capped at OPERATOR while SERVICE_KEY is off (R176). -/
def effectiveAuthority (serviceKey : Bool) (claimed : Authority) : Authority :=
  if serviceKey then claimed else .operator

/-- An authority reaches a level at or below it (R176). -/
def Authority.reaches (a level : Authority) : Bool :=
  decide (level.rank ≤ a.rank)

end Sys2Proof.Machine
end

