-- ==== Sys2Proof/Machine/Flags.lean ====
section
/-! DEFINITION. Everything that is computed from the state and read as a flag, a condition or a standing
demand: kinds and conditions of causes, group summaries and the top cause, the limit unit's demands,
permission of the yaw, the STATUS flags. Nothing here changes the state. -/

namespace Sys2Proof.Machine

/-- Some index has the property. -/
def someIdx {n : Nat} (p : Fin n → Bool) : Bool :=
  (List.finRange n).any p

/-- The lowest index with the property. -/
def lowestIdx {n : Nat} (p : Fin n → Bool) : Option (Fin n) :=
  (List.finRange n).find? p

/-- The indices with the property, ascending. -/
def allIdx {n : Nat} (p : Fin n → Bool) : List (Fin n) :=
  (List.finRange n).filter p

/-- The number, from 1, of the first check that fails in a list of checks made in order. -/
def firstFailing : List Bool → Option Nat
  | [] => none
  | true :: rest => (firstFailing rest).map (· + 1)
  | false :: _ => some 1

/-! ### Kinds of causes (R151) -/

/-- The kind of a cause number. -/
inductive CauseKind | level | event | unassigned
  deriving DecidableEq, Repr

/-- The kinds of the table of R151. -/
def causeKind (c : Fin 128) : CauseKind :=
  if c.val ∈ [0, 1, 6, 16, 17, 20, 32, 33, 35, 51, 53, 55, 56, 64, 65, 66, 67, 80, 81] then .level
  else if c.val ∈ [2, 3, 4, 5, 18, 19, 34, 48, 49, 50, 52, 54] then .event
  else if 96 ≤ c.val then .level
  else .unassigned

/-- A cause number of the groups G6 and G7 (R58). -/
def isLimitCause (c : Fin 128) : Bool :=
  decide (96 ≤ c.val)

/-! ### Standing demands of the limit unit (R62 to R65) -/

/-- Limit `i` is enabled and in TRIP. -/
def inTrip (s : State) (i : Fin 96) : Bool :=
  s.limits[i].enable && s.limits[i].level = .trip

/-- The enabled limits in TRIP with a given action. -/
def tripped (s : State) (a : LimitAction) : List (Fin 96) :=
  allIdx fun i => inTrip s i && s.limits[i].action = a

/-- The least of a list of numbers and `top`. -/
def leastOf (top : Nat) (l : List Nat) : Nat :=
  l.foldl min top

/-- The derate demand of section `k`: the least of min(action_value, 256) over the DERATE_SECTION limits
in TRIP with that subject, 256 when there is none (R62). -/
def derateDemand (s : State) (k : Fin 6) : Nat :=
  leastOf 256 (((tripped s .derateSection).filter fun i => s.limits[i].subject = k).map
    fun i => s.limits[i].actionValue)

/-- The ceiling cap: the least action_value of the CEILING limits in TRIP, if there is one (R62). -/
def ceilingCap (s : State) : Option Nat :=
  match (tripped s .ceiling).map fun i => s.limits[i].actionValue with
  | [] => none
  | v :: rest => some (leastOf v rest)

/-- Section `k` has a standing isolation demand (R63). -/
def isolationDemand (s : State) (k : Fin 6) : Bool :=
  (tripped s .isolateSection).any (fun i => s.limits[i].subject = k) || !(tripped s .isolateAll).isEmpty

/-- A standing yaw hold (R64). -/
def yawHoldStands (s : State) : Bool :=
  !(tripped s .yawHold).isEmpty

/-- START check 5 fails: an enabled NACELLE_STOP limit is UNBOUND (R65). -/
def stopLimitUnbound (s : State) : Bool :=
  someIdx fun i : Fin 96 =>
    s.limits[i].enable && s.limits[i].action = .nacelleStop && s.limits[i].level = .unbound

/-- START check 6 fails: an enabled NACELLE_STOP limit is in TRIP (R65). -/
def stopLimitTripped (s : State) : Bool :=
  !(tripped s .nacelleStop).isEmpty

/-- Limit `i` holds the condition of limit cause `c` (R58). -/
def holdsLimitCause (s : State) (c : Fin 128) (i : Fin 96) : Bool :=
  let l := s.limits[i]
  l.enable && (l.level = .warn && l.warnCause = some c || l.level = .trip && l.tripCause = c)

/-- The record action of a trip cause (R57). -/
def tripRecAction : LimitAction → RecAction
  | .report => .none
  | .derateSection => .derate
  | .isolateSection | .isolateAll => .isolate
  | .ceiling => .ceiling
  | .yawHold => .yawHold
  | .nacelleStop => .nacelleStop

/-! ### Pumps, sections, ring -/

/-- The number of pumps RUNNING. -/
def runningCount (s : State) : Nat :=
  (allIdx fun k : Fin 3 => s.pumps[k].state = .running).length

/-- The number of ONLINE sections (R84). -/
def onlineCount (s : State) : Nat :=
  (allIdx fun i : Fin 6 => s.sects[i].state = .online).length

/-- The round period estimate as it stands: the island period until two tower heads have been accepted
(R5). -/
def estimateNow (s : State) : Nat :=
  s.ring.estimate.getD s.ring.islandPeriod

/-- A pump has flow: its flow channel is usable with a value at or above flow_ok (R132). -/
def hasFlow (s : State) (k : Fin 3) : Bool :=
  match chanValue s s.pumps[k].flowChannel with
  | some v => decide ((s.coolCfg.flowOk : Int) ≤ v)
  | none => false

/-- The brake-open feedback reads open: a usable channel with value 1 (R108). -/
def brakeOpen (s : State) : Bool :=
  chanValue s s.yawCfg.brake = some 1

/-! ### Conditions of LEVEL causes (R152), as their blocks state them -/

/-- The condition of a LEVEL cause at the block that owns it. -/
def blockCondition (c : Fin 128) (s : State) : Bool :=
  if isLimitCause c then someIdx fun i : Fin 96 => holdsLimitCause s c i
  else match c.val with
  | 0 => decide (s.ring.mode ≠ .following)
  | 1 => s.ring.broken
  | 6 => s.lines.estopIn
  | 16 => someIdx fun i : Fin 128 => s.channels[i].state = .stale
  | 17 => someIdx fun i : Fin 128 => s.channels[i].state = .invalid
  | 20 => someIdx fun i : Fin 96 => s.limits[i].enable && s.limits[i].level = .unbound
  | 32 => s.power.loss
  | 33 => someIdx fun i : Fin 6 => s.sects[i].present && s.sects[i].faultHold
  | 35 => someIdx fun i : Fin 6 => s.sects[i].present && s.sects[i].blind
  | 51 => s.yaw.headingLost
  | 53 => hardTwist s.yawCfg s.yaw.twist
  | 55 => s.yaw.judgement = .blind
  | 56 => !s.yaw.twistKnown
  | 64 => someIdx fun k : Fin 3 => s.pumps[k].present && s.pumps[k].state = .failed
  | 65 => decide (runningCount s < s.cool.required)
  | 66 => s.cool.blindMark
  | 67 => !s.cool.dry && s.cool.beenDry
  | 80 => s.reports.overflow
  | 81 => s.sup.nacelle = .test
  | _ => false

/-- The condition of a cause for every rule of the cause unit: its block's condition, or its injected
mark (R162). Only LEVEL causes have one. -/
def causeCondition (c : Fin 128) (s : State) : Bool :=
  causeKind c = .level && (blockCondition c s || s.causes[c].injected)

/-- The fields of a record: action, subject, value. -/
structure RecFields where
  action  : RecAction
  subject : Subject
  value   : Option Half
  deriving DecidableEq, Repr

/-- A record without subject and value. -/
def bareRecord (a : RecAction) : RecFields :=
  { action := a, subject := .none, value := none }

/-- The record of limit cause `c` from the lowest-numbered enabled limit that holds its condition (R58). -/
def limitRecord (c : Fin 128) (s : State) : RecFields :=
  match lowestIdx fun i : Fin 96 => holdsLimitCause s c i with
  | some i =>
    { action := if s.limits[i].level = .trip then tripRecAction s.limits[i].action else .none
      subject := .limit i
      value := s.limits[i].lastValue.map signedFigure }
  | none => bareRecord .none

/-- The record a block supplies when its LEVEL cause rises again because its condition holds, the fields
taken as they stand (R154; R58, R86, R105, R129, R149, R168, R169). HEADING_INVALID has no value while the
anchor is absent (log 31). -/
def blockRecord (c : Fin 128) (s : State) : RecFields :=
  if isLimitCause c then limitRecord c s
  else match c.val with
  | 0 => { action := .none, subject := .none, value := some (unsignedFigure (estimateNow s)) }
  | 1 => { action := .nacelleStop, subject := .none, value := some (unsignedFigure s.ring.lapses) }
  | 6 => bareRecord .nacelleStop
  | 16 =>
    match lowestIdx fun i : Fin 128 => s.channels[i].state = .stale with
    | some i => { action := .none, subject := .channel i,
                  value := some (unsignedFigure s.channels[i].staleRounds) }
    | none => bareRecord .none
  | 17 =>
    match lowestIdx fun i : Fin 128 => s.channels[i].state = .invalid with
    | some i => { action := .none, subject := .channel i, value := some s.channels[i].lastCode }
    | none => bareRecord .none
  | 20 =>
    match lowestIdx fun i : Fin 96 => s.limits[i].enable && s.limits[i].level = .unbound with
    | some i => { action := .none, subject := .limit i,
                  value := some (unsignedFigure s.limits[i].channel.val) }
    | none => bareRecord .none
  | 32 => { action := .none, subject := .none, value := some (unsignedFigure s.power.rEff) }
  | 33 =>
    match lowestIdx fun i : Fin 6 => s.sects[i].present && s.sects[i].faultHold with
    | some i => { action := .isolate, subject := .sect i, value := some 3 }
    | none => bareRecord .isolate
  | 35 =>
    match lowestIdx fun i : Fin 6 => s.sects[i].present && s.sects[i].blind with
    | some i => { action := .derate, subject := .sect i,
                  value := some (unsignedFigure s.power.sectionBlind) }
    | none => bareRecord .derate
  | 51 => { action := .yawHold, subject := .none, value := s.yaw.anchor.map unsignedFigure }
  | 53 => { action := .nacelleStop, subject := .none, value := twistDegrees s.yaw.twist }
  | 55 => { action := .none, subject := .none,
            value := some (unsignedFigure (s.yaw.window.filter Option.isSome).length) }
  | 64 =>
    match lowestIdx fun k : Fin 3 => s.pumps[k].present && s.pumps[k].state = .failed with
    | some k => { action := .none, subject := .pump k,
                  value := some (if s.pumps[k].failure = .flow then 1 else 0) }
    | none => bareRecord .none
  | 65 => { action := .none, subject := .none, value := some (unsignedFigure s.cool.required) }
  | 66 => { action := .derate, subject := .channel s.coolCfg.tin,
            value := some (unsignedFigure s.coolCfg.blind) }
  | 67 => { action := .none, subject := .none, value := s.cool.margin.map signedFigure }
  | 81 => bareRecord .test
  | _ => bareRecord .none

/-- The record of a LEVEL cause that rises again: the block's while its condition holds, and otherwise,
by the injected mark alone, action TEST (R154). -/
def risenRecord (c : Fin 128) (s : State) : RecFields :=
  if blockCondition c s then blockRecord c s else bareRecord .test

/-! ### Summaries and the top cause (R157) -/

/-- A cause that counts toward its group summary and the top cause. -/
def counted (s : State) (c : Fin 128) : Bool :=
  s.causes[c].pending && s.causes[c].summaryEnable

/-- The group summary of group `g` (R157). -/
def groupSummary (s : State) (g : Fin 8) : Bool :=
  someIdx fun c : Fin 128 => decide (c.val / 16 = g.val) && counted s c

/-- The groups in the order of the top cause (R157). -/
def topOrder : List (Fin 8) :=
  [0, 6, 7, 2, 3, 4, 1, 5]

/-- The causes in the order of the top cause: by group, then the lowest number first. -/
def causesByImportance : List (Fin 128) :=
  topOrder.flatMap fun g => allIdx fun c : Fin 128 => decide (c.val / 16 = g.val)

/-- The top cause, or none (R157). -/
def topCause (s : State) : Option (Fin 128) :=
  causesByImportance.find? (counted s)

/-- A word whose bit `k` is set when `p k` holds, for k below `n`. -/
def bitsOf (n : Nat) (p : Nat → Bool) : Nat :=
  ((List.range n).map fun k => if p k then 2 ^ k else 0).sum

/-- The active groups, bit g for group g (R185). -/
def activeGroups (s : State) : Nat :=
  bitsOf 8 fun g => groupSummary s (Fin.ofNat 8 g)

/-- The causes of a group that are pending, bit n for cause 16 × group + n (R183). -/
def pendingSet (s : State) (g : Fin 8) : Nat :=
  bitsOf 16 fun n => s.causes[Fin.ofNat 128 (16 * g.val + n)].pending

/-- The four status flags of the STATUS cell (01 Cells). -/
def statusFlags (s : State) : Nat :=
  bitsOf 4 fun n =>
    match n with
    | 0 => !s.reports.queue.isEmpty
    | 1 => s.reports.overflow
    | 2 => s.sup.nacelle = .test
    | 3 => s.yaw.twistKnown
    | _ => false

/-! ### Permission of the yaw (R116) -/

/-- Permission condition 1: OPERATING, or STOPPED with a permitting reason. -/
def nacellePermits (s : State) : Bool :=
  s.sup.nacelle = .operating || (s.sup.nacelle = .stopped && !barsYaw s.sup.reason)

/-- The yaw is permitted to move (R116). -/
def yawPermitted (s : State) : Bool :=
  nacellePermits s && !s.ring.broken && s.yaw.twistKnown && usable s s.yawCfg.heading

/-- A slew is under way: SLEWING, or the SLEW phase of UNWINDING or JOGGING (R117). -/
def inSlew (y : Yaw) : Bool :=
  match y.mode with
  | .slewing => true
  | .unwinding | .jogging => y.phase = .slew
  | _ => false

/-- A release is under way: RELEASING, or the RELEASE phase of UNWINDING or JOGGING (R119). -/
def inRelease (y : Yaw) : Bool :=
  match y.mode with
  | .releasing => true
  | .unwinding | .jogging => y.phase = .release
  | _ => false

/-- The yaw is PARKED or HELD. -/
def yawAtRest (s : State) : Bool :=
  s.yaw.mode = .parked || s.yaw.mode = .held

end Sys2Proof.Machine
end

