-- ==== Sys2Proof/Machine/PowerUnit.lean ====
section
/-! DEFINITION. The dispatch unit (06): the request, the ceiling, the shares and the issued references. -/

namespace Sys2Proof.Machine

/-! ### The request (R90, R91) -/

/-- A setpoint arrival with the payload `kw` (R90). -/
def setpointTaken (kw : Nat) (s : State) : State :=
  { s with power := { s.power with rEff := min kw 65535, quiet := 0, arrived := true, loss := false } }

/-- The setpoint quiet count at a close (R91 steps 1 and 2). -/
def quietAtClose (s : State) : State :=
  let p := s.power
  { s with power :=
      if p.arrived then { p with arrived := false }
      else { p with quiet := if p.quiet < Config.countStop then p.quiet + 1 else p.quiet } }

/-- R_eff falls by setpoint_decay, not below 0 (R91 step 4). -/
def decayRequest (s : State) : State :=
  { s with power := { s.power with rEff := s.power.rEff - s.power.setpointDecay } }

/-- The setpoint quiet count reaching setpoint_hold: the loss flag goes ON, SETPOINT_LOSS rises with the
request before its first decay, and the decay starts (R91, R105). -/
def setpointLost (s : State) : State :=
  if !s.power.loss && decide (s.power.setpointHold ≤ s.power.quiet) then
    decayRequest (raise CauseNo.setpointLoss .none .none (some (unsignedFigure s.power.rEff))
      { s with power := { s.power with loss := true } })
  else s

/-- The request at a round close (R91). -/
def requestAtClose (s : State) : State :=
  let t := quietAtClose s
  if t.power.loss then decayRequest t else setpointLost t

/-! ### The ceiling (R92, R93) -/

/-- The five terms of a close (R92). -/
structure Terms where
  tReq  : Nat
  tCool : Nat
  tYaw  : Nat
  tLim  : Nat
  cap   : Nat
  deriving DecidableEq, Repr

/-- The sum over the six sections. -/
def sumSix (f : Fin 6 → Nat) : Nat :=
  ((List.finRange 6).map f).sum

/-- The terms as they stand (R92). -/
def termsNow (s : State) : Terms where
  tReq := s.power.rEff
  tCool := s.power.rating * s.cool.factor / 256
  tYaw := s.power.rating * s.yaw.factor / 256
  tLim := (ceilingCap s).getD s.power.rating
  cap := sumSix fun i => s.sects[i].capability

/-- The gate is open: OPERATING with run_enable ON (R93). -/
def gateOpen (s : State) : Bool :=
  s.sup.nacelle = .operating && s.sup.mode.runEnable

/-- The least of the five terms. -/
def leastTerm (t : Terms) : Nat :=
  min t.tReq (min t.tCool (min t.tYaw (min t.tLim t.cap)))

/-- The ceiling L (R93). -/
def ceilingOf (opened : Bool) (t : Terms) : Nat :=
  if opened then leastTerm t else 0

/-- The ceiling term: the first in the order of the table that decides L (R93). -/
def termOf (opened : Bool) (t : Terms) : CeilingTerm :=
  if !opened then .gate
  else if leastTerm t = t.tReq then .request
  else if leastTerm t = t.tCool then .cooling
  else if leastTerm t = t.tYaw then .yaw
  else if leastTerm t = t.tLim then .limit
  else .capability

/-! ### Sharing (R95 to R97) -/

/-- The floored share of a section with capability `c`, for the ceiling `l` and the sum `a` (R95). -/
def floorShare (l a c : Nat) : Nat :=
  if a = 0 then 0 else l * c / a

/-- The remainder of a section's share (R95). -/
def shareRemainder (l a c : Nat) : Nat :=
  if a = 0 then 0 else l * c % a

/-- The deficit of the floored shares (R95). -/
def deficit (l a : Nat) (cap : Fin 6 → Nat) : Nat :=
  l - sumSix fun i => floorShare l a (cap i)

/-- The rank of section `i` by remainder, largest first, the lower number first among equals (R96). -/
def remainderRank (l a : Nat) (cap : Fin 6 → Nat) (i : Fin 6) : Nat :=
  (allIdx fun j : Fin 6 =>
    decide (shareRemainder l a (cap i) < shareRemainder l a (cap j) ∨
      shareRemainder l a (cap j) = shareRemainder l a (cap i) ∧ j < i)).length

/-- The share of section `i`, the deficit handed out by rank (R96). -/
def shareOf (l a : Nat) (cap : Fin 6 → Nat) (i : Fin 6) : Nat :=
  floorShare l a (cap i) + if remainderRank l a cap i < deficit l a cap then 1 else 0

/-- The issued reference of section `i` from its share (R97). -/
def issuedOf (s : State) (share : Nat) (i : Fin 6) : Nat :=
  if s.sects[i].state = .online then min share (s.power.issued[i] + s.sects[i].rampStep) else 0

/-- The ceiling, the shares and the issued references of a close (R92 to R97). -/
def dispatchAtClose (s : State) : State :=
  let t := termsNow s
  let l := ceilingOf (gateOpen s) t
  let cap : Fin 6 → Nat := fun i => s.sects[i].capability
  let share : Fin 6 → Nat := shareOf l t.cap cap
  let issue : Fin 6 → Nat := fun i => issuedOf s (share i) i
  { s with power := { s.power with
      ceiling := l, term := termOf (gateOpen s) t
      tReq := t.tReq, tCool := t.tCool, tYaw := t.tYaw, tLim := t.tLim, capSum := t.cap
      shares := Vector.ofFn share, issued := Vector.ofFn issue, issuedSum := sumSix issue } }

/-- The dispatch unit's close work. -/
def powerClose (s : State) : State :=
  dispatchAtClose (requestAtClose s)

/-- The warm reset of the dispatch unit (R106). -/
def powerWarmReset (s : State) : State :=
  { s with power := { s.power with
      rEff := 0, quiet := 0, arrived := false, loss := false, ceiling := 0, term := .gate
      tReq := 0, tCool := 0, tYaw := 0, tLim := 0, capSum := 0, issuedSum := 0
      shares := Vector.replicate 6 0, issued := Vector.replicate 6 0 } }

/-- Request and issued power fractions (R44). -/
def requestFraction (s : State) : Nat :=
  powerFraction s.power.rEff s.power.rating

def issuedFraction (s : State) : Nat :=
  powerFraction s.power.issuedSum s.power.rating

end Sys2Proof.Machine
end

