-- ==== Sys2Proof/Machine/CoolingUnit.lean ====
section
/-! DEFINITION. The cooling unit (08): pumps, the cooling factor, fans, and the cabinet climate. -/

namespace Sys2Proof.Machine

/-! ### The cooling factor (R140) -/

/-- F_c is formed anew from the coolant factor and the factor of the RUNNING pumps (R140). -/
def formFactor (s : State) : State :=
  { s with cool := { s.cool with
      factor := min s.cool.coolantFactor (s.coolCfg.pumpFactor.toList.getD (runningCount s) 0) } }

/-- A channel update of T_in with value `v` (R140, R50). -/
def coolantUpdate (v : Int) (s : State) : State :=
  let answer := evalCurve s.curves[CurveNo.coolant] v
  formFactor { s with cool := { s.cool with
    coolantFactor := answer.getD s.coolCfg.blind, blindMark := false, fallbackMark := answer.isNone } }

/-- A channel loss of T_in (R140, R149). The factor it gives is not the fallback of an unset curve, so
the fallback mark goes OFF. -/
def coolantLoss (s : State) : State :=
  raise CauseNo.coolingBlind .derate (.channel s.coolCfg.tin) (some (unsignedFigure s.coolCfg.blind))
    (formFactor { s with cool := { s.cool with
      coolantFactor := s.coolCfg.blind, blindMark := true, fallbackMark := false } })

/-- The coolant factor by the state of T_in's channel as it stands (R140). -/
def coolantNow (s : State) : State :=
  match chanValue s s.coolCfg.tin with
  | some v => coolantUpdate v s
  | none => coolantLoss s

/-! ### The dew margin, the guard, the heater, the loss of the dry permissive (R143 to R146) -/

/-- The dew margin, known while T_in, T_cab and RH are all usable (R144). -/
def marginNow (s : State) : Option Int :=
  match chanValue s s.coolCfg.tin, chanValue s s.coolCfg.tcab, chanValue s s.coolCfg.rh with
  | some tin, some tcab, some rh => some (tin - dewPoint tcab rh)
  | _, _, _ => none

/-- The condensation guard applies: a known margin below guard, and T_in below emergency (R143). -/
def guardApplies (s : State) : Bool :=
  match s.cool.margin, chanValue s s.coolCfg.tin with
  | some m, some tin => decide (m < s.coolCfg.guard ∧ tin < s.coolCfg.emergency)
  | _, _ => false

/-- A test of the guard: applying with the commanded stage above guard_cap, the stage becomes guard_cap
at once and the step count goes to 0 (R143). The held wanted stage keeps its figure until it is next formed
(log 33). -/
def guardTest (s : State) : State :=
  if guardApplies s && decide (s.coolCfg.guardCap < s.cool.commanded) then
    { s with cool := { s.cool with commanded := s.coolCfg.guardCap, stepCount := 0 } }
  else s

/-- The heater by the margin against heat_on and heat_off (R145). -/
def heaterJudge (s : State) : State :=
  let on := match s.cool.margin with
    | none => true
    | some m =>
      if m < s.coolCfg.heatOn then true
      else if s.coolCfg.heatOff < m then false
      else s.cool.heater
  { s with cool := { s.cool with heater := on } }

/-- The loss test of the dry permissive: a true permissive is lost while the margin is unknown or below
dry_lost, and DRY_LOST rises (R146). -/
def dryLossTest (s : State) : State :=
  let lost := match s.cool.margin with
    | none => true
    | some m => decide (m < s.coolCfg.dryLost)
  if s.cool.dry && lost then
    let t := { s with cool := { s.cool with dry := false } }
    if s.cool.beenDry then raise CauseNo.dryLost .none .none (s.cool.margin.map signedFigure) t else t
  else s

/-- The margin is formed anew, an occasion for the guard, the heater and the loss test (R144). -/
def formMargin (s : State) : State :=
  dryLossTest (heaterJudge (guardTest { s with cool := { s.cool with margin := marginNow s } }))

/-- A channel is an input of the dew margin (R144). -/
def marginInput (s : State) (ch : Fin 128) : Bool :=
  ch = s.coolCfg.tin || ch = s.coolCfg.tcab || ch = s.coolCfg.rh

/-- A channel update reaches the cooling unit (R140, R144). -/
def coolingUpdate (ch : Fin 128) (v : Int) (s : State) : State :=
  let t := if ch = s.coolCfg.tin then coolantUpdate v s else s
  if marginInput s ch then formMargin t else t

/-- A channel loss reaches the cooling unit (R140, R144). COOLING_BLIND rises before DRY_LOST,
which is the model's choice (log 24). -/
def coolingLoss (ch : Fin 128) (s : State) : State :=
  let t := if ch = s.coolCfg.tin then coolantLoss s else s
  if marginInput s ch then formMargin t else t

/-! ### The order list and the commanded flags (R135, R136) -/

/-- A pump is in service: STARTING or RUNNING. -/
def inService (p : Pump) : Bool :=
  p.state = .starting || p.state = .running

/-- Pump `a` stands before pump `b` in a rebuilt list: in service first, then fewer run minutes, then the
lower number (R135). -/
def pumpBefore (s : State) (a b : Fin 3) : Bool :=
  let p := s.pumps[a]
  let q := s.pumps[b]
  if inService p ≠ inService q then inService p
  else if p.runMinutes ≠ q.runMinutes then decide (p.runMinutes < q.runMinutes)
  else decide (a < b)

/-- A pump takes its place in a list that is already ordered. -/
def placePump (s : State) (a : Fin 3) : List (Fin 3) → List (Fin 3)
  | [] => [a]
  | b :: rest => if pumpBefore s a b then a :: b :: rest else b :: placePump s a rest

/-- The pumps eligible to run, in the order of R135. -/
def rebuiltOrder (s : State) : List (Fin 3) :=
  (allIdx fun k : Fin 3 => s.pumps[k].present && s.pumps[k].state ≠ .failed).foldr (placePump s) []

/-- The order list is rebuilt (R135). -/
def rebuildOrder (s : State) : State :=
  { s with cool := { s.cool with order := rebuiltOrder s } }

/-- A pump follows its commanded flag (R136). -/
def commandPump (on : Bool) (p : Pump) : Pump :=
  match on, p.state with
  | true, .off => { p with commanded := true, state := .starting, startCount := 0 }
  | false, .starting => { p with commanded := false, state := .off, startCount := 0 }
  | false, .running => { p with commanded := false, state := .off, lowCount := 0 }
  | b, _ => { p with commanded := b }

/-- The commanded flag of every pump is set from the first n_req entries of the list, and the pump states
follow (R136). -/
def commandPumps (s : State) : State :=
  { s with pumps := Vector.ofFn fun k : Fin 3 =>
      commandPump (decide (k ∈ s.cool.order.take s.cool.required)) s.pumps[k] }

/-- Rebuild the list and command the pumps again. -/
def reorderPumps (s : State) : State :=
  commandPumps (rebuildOrder s)

/-! ### Pump judgements (R134, R137 to R139) -/

/-- The required count n_req, by the nacelle state (R134). -/
def requiredNow (s : State) : Nat :=
  let answer := (evalCurve s.curves[CurveNo.pumpDemand] (requestFraction s)).getD 3
  match s.sup.nacelle with
  | .loading => 0
  | .operating => max answer 1
  | .stopped | .test => answer

/-- n_req is evaluated; a change rebuilds the list and commands the pumps (R134 to R136). -/
def requiredAtClose (s : State) : State :=
  let n := requiredNow s
  if n = s.cool.required then s else reorderPumps { s with cool := { s.cool with required := n } }

/-- No pump but `k` holds the condition of PUMP_FAIL (R138). -/
def noOtherFailed (s : State) (k : Fin 3) : Bool :=
  !someIdx fun j : Fin 3 => j ≠ k && s.pumps[j].present && s.pumps[j].state = .failed

/-- Pump `k` has been cleared of FAILED, PUMP_FAIL is still pending, and no other pump holds its condition: R148
has the record of its next failure added. -/
def recordOwed (k : Fin 3) (s : State) : Bool :=
  s.causes[CauseNo.pumpFail].pending && s.pumps[k].cleared && noOtherFailed s k

/-- The record value of PUMP_FAIL: 0 for a failed start, 1 for flow lost while RUNNING (R149). -/
def pumpFailValue (how : PumpFailure) : Half :=
  if how = .flow then 1 else 0

/-- The record that R148 adds at the new failure of a cleared pump, beside the rise of the pending cause, which
adds nothing (R152; log 29). -/
def addPumpRecord (k : Fin 3) (how : PumpFailure) (s : State) : State :=
  if s.causes[CauseNo.pumpFail].reportEnable then
    fileRecord { cause := CauseNo.pumpFail, stamp := s.ring.extCount, action := .none, subject := .pump k
                 value := some (pumpFailValue how) } s
  else s

/-- PUMP_FAIL rises for pump `k` (R149), and the record that R148 owes is added (log 29). -/
def raisePumpFail (k : Fin 3) (how : PumpFailure) (s : State) : State :=
  if recordOwed k s then addPumpRecord k how s
  else raise CauseNo.pumpFail .none (.pump k) (some (pumpFailValue how)) s

/-- A pump enters FAILED: it is commanded OFF, PUMP_FAIL rises, and the next pump is commanded
(R137, R138). -/
def failPump (k : Fin 3) (how : PumpFailure) (s : State) : State :=
  reorderPumps ((raisePumpFail k how s).setPump k
    { s.pumps[k] with state := .failed, commanded := false, failure := how, cleared := false })

/-- The start count of a STARTING pump reaching pump_start fails it (R137). -/
def pumpStartFail (k : Fin 3) (s : State) : State :=
  if s.pumps[k].state = .starting ∧ s.coolCfg.pumpStart ≤ s.pumps[k].startCount then
    failPump k .start s
  else s

/-- The low count of a RUNNING pump reaching pump_persist fails it (R138). -/
def pumpFlowFail (k : Fin 3) (s : State) : State :=
  if s.pumps[k].state = .running ∧ s.coolCfg.pumpPersist ≤ s.pumps[k].lowCount then
    failPump k .flow s
  else s

/-- The judgement of a STARTING pump at a close (R137). -/
def judgeStarting (k : Fin 3) (s : State) : State :=
  let p := s.pumps[k]
  if p.state ≠ .starting then s
  else if hasFlow s k then s.setPump k { p with state := .running, lowCount := 0, cleared := false }
  else pumpStartFail k (s.setPump k { p with startCount := p.startCount + 1 })

/-- The judgement of a RUNNING pump at a close (R138). One that the close has just put OFF is passed over
(log 34). -/
def judgeRunning (k : Fin 3) (s : State) : State :=
  let p := s.pumps[k]
  if p.state ≠ .running then s
  else if hasFlow s k then s.setPump k { p with lowCount := 0 }
  else pumpFlowFail k (s.setPump k { p with lowCount := p.lowCount + 1 })

/-- PUMPS_SHORT is judged as the pump states and n_req stand (R138, R149). -/
def shortTest (s : State) : State :=
  if runningCount s < s.cool.required then
    raise CauseNo.pumpsShort .none .none (some (unsignedFigure s.cool.required)) s
  else s

/-- The minute count of a RUNNING pump reaching 240,000 advances its run_minutes (R139). -/
def runMinute (k : Fin 3) (s : State) : State :=
  let p := s.pumps[k]
  if p.state = .running ∧ Config.runMinuteCloses ≤ p.minuteCount then
    s.setPump k { p with minuteCount := 0, runMinutes := min (p.runMinutes + 1) 4294967295 }
  else s

/-- The minute count of a RUNNING pump advances (R139). -/
def minuteTick (k : Fin 3) (s : State) : State :=
  let p := s.pumps[k]
  if p.state = .running then runMinute k (s.setPump k { p with minuteCount := p.minuteCount + 1 }) else s

/-- The pump work of a close, in the order of R134 to R140. A pump that enters STARTING or RUNNING by this
close's own work is first judged, as such, at the next close. A pump that was RUNNING before and that the new
count has put OFF is not judged (log 34). Which of several pumps is judged first is open (log 2). -/
def pumpsAtClose (s : State) : State :=
  let commanded := requiredAtClose s
  let starting := allIdx fun k : Fin 3 =>
    s.pumps[k].state = .starting && commanded.pumps[k].state = .starting
  let running := allIdx fun k : Fin 3 => s.pumps[k].state = .running
  let judged := inOpenOrder running judgeRunning (inOpenOrder starting judgeStarting commanded)
  formFactor ((List.finRange 3).foldl (fun t k => minuteTick k t) (shortTest judged))

/-! ### Fans (R141, R142) -/

/-- The up count or down count reaching fan_persist moves the thermal stage by one (R141). -/
def thermalStageStep (s : State) : State :=
  let c := s.cool
  if s.coolCfg.fanPersist ≤ c.upCount then
    { s with cool := { c with thermal := min (c.thermal + 1) 4, upCount := 0, downCount := 0 } }
  else if s.coolCfg.fanPersist ≤ c.downCount then
    { s with cool := { c with thermal := c.thermal - 1, upCount := 0, downCount := 0 } }
  else s

/-- T_in at `v` stands above the threshold of the next thermal stage, fan_up[k + 1] at stage k < 4 (R141). -/
def aboveUp (s : State) (v : Int) : Bool :=
  match s.coolCfg.fanUp[s.cool.thermal]? with
  | some x => decide (x < v)
  | none => false

/-- T_in at `v` stands below the threshold of the present thermal stage, fan_down[k] at stage k > 0 (R141). -/
def belowDown (s : State) (v : Int) : Bool :=
  decide (0 < s.cool.thermal) &&
    match s.coolCfg.fanDown[s.cool.thermal - 1]? with
    | some x => decide (v < x)
    | none => false

/-- The up and down counts of a close, from T_in as it stands (R141). -/
def thermalCounts (s : State) : State :=
  let c := s.cool
  { s with cool :=
      match chanValue s s.coolCfg.tin with
      | none => { c with thermal := 4, upCount := 0, downCount := 0 }
      | some v =>
        if aboveUp s v then { c with upCount := c.upCount + 1, downCount := 0 }
        else if belowDown s v then { c with upCount := 0, downCount := c.downCount + 1 }
        else { c with upCount := 0, downCount := 0 } }

/-- The wanted stage (R142, capped by R143). -/
def wantedNow (s : State) : Nat :=
  let free :=
    if s.sup.mode.coolingManual then s.sup.mode.manualStage
    else max s.cool.thermal ((evalCurve s.curves[CurveNo.fanFf] (issuedFraction s)).getD 4)
  if guardApplies s then min free s.coolCfg.guardCap else free

/-- The wanted stage is formed; with the commanded stage differing from it and the step count at or above
fan_step, the commanded stage moves one step toward it (R142). -/
def fanStep (s : State) : State :=
  let w := wantedNow s
  let c := { s.cool with wanted := w }
  if c.commanded ≠ w ∧ s.coolCfg.fanStep ≤ c.stepCount then
    { s with cool := { c with
        commanded := if c.commanded < w then c.commanded + 1 else c.commanded - 1, stepCount := 0 } }
  else { s with cool := c }

/-- The step count advances at each close, stopping at 65,535 (R142). -/
def stepCountTick (s : State) : State :=
  { s with cool := { s.cool with stepCount := min (s.cool.stepCount + 1) Config.countStop } }

/-! ### The dry permissive gained (R146) -/

/-- The dry count reaching dry_confirm makes the permissive true and sets the been-dry mark (R146). -/
def dryConfirm (s : State) : State :=
  if !s.cool.dry && decide (s.coolCfg.dryConfirm ≤ s.cool.dryCount) then
    { s with cool := { s.cool with dry := true, dryCount := 0, beenDry := true } }
  else s

/-- The dry count of a close (R146). -/
def dryCountTick (s : State) : State :=
  let good := match s.cool.margin with
    | some m => !s.cool.dry && decide (s.coolCfg.dryMargin ≤ m)
    | none => false
  { s with cool := { s.cool with dryCount := if good then s.cool.dryCount + 1 else 0 } }

/-- The cooling unit's close work. -/
def coolingClose (s : State) : State :=
  let fans := guardTest (fanStep (stepCountTick (thermalStageStep (thermalCounts (pumpsAtClose s)))))
  dryConfirm (dryCountTick fans)

/-! ### Writes (R131, R148) -/

/-- The consistency checks of the cooling settings (R131). -/
def coolSettingsConsistent (c : CoolSettings) : Bool :=
  decide (c.fanUp[0] < c.fanUp[1] ∧ c.fanUp[1] < c.fanUp[2] ∧ c.fanUp[2] < c.fanUp[3]) &&
    decide (c.fanDown[0] < c.fanUp[0] ∧ c.fanDown[1] < c.fanUp[1] ∧ c.fanDown[2] < c.fanUp[2] ∧
      c.fanDown[3] < c.fanUp[3]) &&
    decide (c.heatOn < c.heatOff) && decide (c.dryLost < c.dryMargin)

/-- What a taken write of field `f` of the cooling settings does at once (R140, R143 to R146). -/
def coolSettingsWritten (f : Nat) (s : State) : State :=
  match f with
  | 0 => formMargin (coolantNow s)
  | 1 | 2 => formMargin s
  | 3 =>
    if s.cool.blindMark || s.cool.fallbackMark then
      formFactor { s with cool := { s.cool with coolantFactor := s.coolCfg.blind } }
    else s
  | 4 | 5 | 6 | 7 => formFactor s
  | 21 | 22 | 23 => guardTest s
  | 24 | 25 => heaterJudge s
  | 28 => dryLossTest s
  | _ => s

/-- The pump work after a write of R148: the list rebuilt, the pumps commanded, PUMPS_SHORT judged and
F_c formed. -/
def pumpsAfterWrite (s : State) : State :=
  formFactor (shortTest (reorderPumps s))

/-- A pump with its counts at 0, OFF and not commanded (R148). -/
def pumpCleared (p : Pump) : Pump :=
  { p with
    state := .off, commanded := false, startCount := 0, lowCount := 0, minuteCount := 0
    failure := .none, cleared := false }

/-- A taken write of a pump's present flag (R148). -/
def writePumpPresent (k : Fin 3) (on : Bool) (s : State) : State :=
  if on = s.pumps[k].present then s
  else pumpsAfterWrite (s.setPump k { pumpCleared s.pumps[k] with present := on })

/-- A taken write of state OFF: it clears a FAILED pump and changes nothing for any other (R148). -/
def clearFailedPump (k : Fin 3) (s : State) : State :=
  if s.pumps[k].state = .failed then
    pumpsAfterWrite (s.setPump k { pumpCleared s.pumps[k] with cleared := true })
  else s

/-! ### Command cells (R147) -/

/-- The payload of a pump's command cell. -/
def pumpCommand (s : State) (k : Fin 3) : Nat :=
  if s.pumps[k].present && s.pumps[k].commanded then 1 else 0

/-- The warm column of the cooling unit's reset table (R150). -/
def coolingWarmReset (s : State) : State :=
  let t := { s with pumps := s.pumps.map fun p : Pump =>
    { p with
      state := .off, commanded := false, startCount := 0, lowCount := 0, failure := .none, cleared := false } }
  formFactor (rebuildOrder { t with cool := { t.cool with
    required := 0, coolantFactor := s.coolCfg.blind, blindMark := true, fallbackMark := false
    thermal := 4, upCount := 0, downCount := 0, wanted := 0, commanded := 0, stepCount := 0
    margin := none, heater := true, dry := false, dryCount := 0, beenDry := false } })

end Sys2Proof.Machine
end

