-- ==== Sys2Proof/Machine/LimitUnit.lean ====
section
/-! DEFINITION. The limit unit (04): evaluation, levels, the actions at entry, losses, CLEARs and writes. -/

namespace Sys2Proof.Machine

/-! ### Targets (R54) -/

/-- The value `v` calls for the level at `x`: at or above it for HIGH, at or below it for LOW. -/
def reachesLevel (d : Direction) (v x : Int) : Bool :=
  match d with
  | .high => decide (x ≤ v)
  | .low => decide (v ≤ x)

/-- The hold line of a level: the level relaxed by the hysteresis. -/
def holdLine (d : Direction) (x : Int) (hysteresis : Nat) : Int :=
  match d with
  | .high => x - hysteresis
  | .low => x + hysteresis

/-- The target that `v` gives, from the level in force (R54). -/
def targetOf (l : Limit) (v : Int) : Target :=
  match l.level with
  | .clear | .unbound =>
    if reachesLevel l.direction v l.trip then .trip
    else if reachesLevel l.direction v l.warn then .warn
    else .clear
  | .warn =>
    if reachesLevel l.direction v l.trip then .trip
    else if reachesLevel l.direction v (holdLine l.direction l.warn l.hysteresis) then .warn
    else .clear
  | .trip =>
    if reachesLevel l.direction v (holdLine l.direction l.trip l.hysteresis) then .trip
    else if reachesLevel l.direction v (holdLine l.direction l.warn l.hysteresis) then .warn
    else .clear

/-- A target as a level. -/
def Target.toLevel : Target → Level
  | .clear => .clear
  | .warn => .warn
  | .trip => .trip

/-- The target field that records a level; UNBOUND records CLEAR (R61). -/
def Level.toTarget : Level → Target
  | .clear | .unbound => .clear
  | .warn => .warn
  | .trip => .trip

/-! ### What a change of level hands out (R57, R62 to R65) -/

/-- The action of a limit entering TRIP: isolation arrivals, a yaw hold arrival, or a stop demand
(R63 to R65). The standing demands follow from the level itself (Flags). -/
def beginAction (l : Limit) (s : State) : State :=
  match l.action with
  | .isolateSection => isolateSect l.subject s
  | .isolateAll => (List.finRange 6).foldl (fun t k => isolateSect k t) s
  | .yawHold => yawToHeld s
  | .nacelleStop => stopDemand (.cause l.tripCause) s
  | .report | .derateSection | .ceiling => s

/-- Limit `i` has entered the level it now shows (R57). -/
def levelEntered (i : Fin 96) (s : State) : State :=
  let l := s.limits[i]
  match l.level with
  | .warn =>
    match l.warnCause with
    | some c => raise c .none (.limit i) (l.lastValue.map signedFigure) s
    | none => s
  | .trip =>
    beginAction l (raise l.tripCause (tripRecAction l.action) (.limit i) (l.lastValue.map signedFigure) s)
  | .unbound =>
    raise CauseNo.limitUnbound .none (.limit i) (some (unsignedFigure l.channel.val)) s
  | .clear => s

/-! ### Evaluation (R53 to R56) -/

/-- The record after an evaluation whose target is `t` (R55), and whether its level has moved. -/
def stepped (l : Limit) (t : Target) : Limit × Bool :=
  if t.toLevel = l.level then ({ l with counter := 0, target := t }, false)
  else
    let n := if t = l.target then l.counter + 1 else 1
    if l.persistence ≤ n then ({ l with level := t.toLevel, target := t, counter := 0 }, true)
    else ({ l with target := t, counter := n }, false)

/-- An evaluation of limit `i` at the value `v` (R53 to R56). -/
def evaluateLimit (i : Fin 96) (v : Int) (s : State) : State :=
  let l := s.limits[i]
  if !l.enable || l.level = .unbound then s
  else
    let seen := { l with lastValue := some v }
    if l.latch && l.level = .trip then s.setLimit i { seen with target := .trip, counter := 0 }
    else
      let r := stepped seen (targetOf l v)
      let t := s.setLimit i r.1
      if r.2 then levelEntered i t else t

/-! ### Losses and UNBOUND (R60, R61) -/

/-- A channel loss reaches limit `i` (R60); one marked EMPTY makes it UNBOUND (R61). -/
def limitLoss (i : Fin 96) (empty : Bool) (s : State) : State :=
  let l := s.limits[i]
  if !l.enable || l.level = .unbound then s
  else if empty then
    levelEntered i (s.setLimit i
      { l with level := .unbound, target := .clear, counter := 0, lastValue := none })
  else s.setLimit i { l with counter := 0, target := l.level.toTarget }

/-- A write of definition CONFIGURED has been taken for the channel of limit `i`: an UNBOUND limit
becomes CLEAR (R61). -/
def limitBound (i : Fin 96) (s : State) : State :=
  let l := s.limits[i]
  if l.enable && l.level = .unbound then
    s.setLimit i { l with level := .clear, target := .clear, counter := 0, lastValue := none }
  else s

/-- The record of an armed limit: UNBOUND while its channel's definition is EMPTY, otherwise CLEAR
(R52). -/
def armed (s : State) (l : Limit) : Limit :=
  { l with
    level := if s.channels[l.channel].configured then .clear else .unbound
    target := .clear, counter := 0, lastValue := none }

/-- The runtime of a disabled limit (R52). -/
def disarmed (l : Limit) : Limit :=
  { l with level := .clear, target := .clear, counter := 0, lastValue := none }

/-- Limit `i` is armed with the record `l` (R52); becoming UNBOUND raises LIMIT_UNBOUND (R61). -/
def armLimit (i : Fin 96) (l : Limit) (s : State) : State :=
  levelEntered i (s.setLimit i (armed s l))

/-! ### CLEAR of a trip cause (R59) -/

/-- A value lies past the TRIP hold line (R59). -/
def recovered (l : Limit) (v : Int) : Bool :=
  !reachesLevel l.direction v (holdLine l.direction l.trip l.hysteresis)

/-- Limit `i` at a CLEAR of cause `c`: a latched TRIP with a usable channel and a recovered last value
moves to WARN or CLEAR (R59). -/
def clearLimit (c : Fin 128) (i : Fin 96) (s : State) : State :=
  let l := s.limits[i]
  if l.enable && l.latch && l.level = .trip && l.tripCause = c && usable s l.channel then
    match l.lastValue with
    | some v =>
      if recovered l v then
        let t := targetOf l v
        levelEntered i (s.setLimit i { l with level := t.toLevel, target := t, counter := 0 })
      else s
    | none => s
  else s

/-- The limit unit examines every enabled limit at a CLEAR of a limit cause (R59). -/
def limitsAtClear (c : Fin 128) (s : State) : State :=
  inOpenOrder (allIdx fun i : Fin 96 => inTrip s i && s.limits[i].latch && s.limits[i].tripCause = c)
    (clearLimit c) s

/-! ### Writes (R66, R67) -/

/-- Warn and trip stand in the order the direction requires (R51, R66). -/
def limitOrdered (l : Limit) : Bool :=
  match l.direction with
  | .high => decide (l.warn ≤ l.trip)
  | .low => decide (l.trip ≤ l.warn)

/-- What a taken write of limit `i` does to its runtime (R67). `old` is the record before the write and
`l` the record with the new field; `structural` says that the field is one of the structural fields,
`levels` that it is warn, trip, hysteresis or persistence. -/
def limitWritten (i : Fin 96) (old l : Limit) (structural levels : Bool) (s : State) : State :=
  if !l.enable then s.setLimit i (if old.enable then disarmed l else l)
  else if structural then armLimit i l s
  else if levels then s.setLimit i { l with counter := 0, target := l.level.toTarget }
  else s.setLimit i l

/-- The warm reset of the limit unit: every enabled limit is armed (R68). -/
def limitsWarmReset (s : State) : State :=
  { s with limits := s.limits.map fun l => if l.enable then armed s l else disarmed l }

end Sys2Proof.Machine
end

