-- ==== Sys2Proof/Machine/SectionUnit.lean ====
section
/-! DEFINITION. The section manager (05): node status, section states, thermal factor, capability and the
section command cell. -/

namespace Sys2Proof.Machine

/-! ### Node status (R72) -/

/-- The status a node reports. -/
inductive NodeStatus | notReady | ready | running | fault
  deriving DecidableEq, Repr

/-- The status of a status-channel value; any value but 1, 2 and 3 is NOT_READY (R72). -/
def nodeStatus (v : Int) : NodeStatus :=
  if v = 1 then .ready else if v = 2 then .running else if v = 3 then .fault else .notReady

/-- A channel update of section `i`'s status channel with value `v` (R76, R78). -/
def statusUpdate (i : Fin 6) (v : Int) (s : State) : State :=
  let x := s.sects[i]
  if !x.present then s
  else match nodeStatus v with
    | .fault =>
      raise CauseNo.sectionFault .isolate (.sect i) (some 3)
        (s.setSect i { x with faultHold := true
                              state := if x.state = .online ∨ x.state = .held then .isolated else x.state })
    | .notReady =>
      match x.state with
      | .online =>
        raise CauseNo.sectionDropped .none (.sect i) (some (signedFigure v))
          (s.setSect i { x with state := .held })
      | .isolated => s.setSect i { x with faultHold := false }
      | .held | .absent => s
    | .ready | .running =>
      match x.state with
      | .isolated => s.setSect i { x with faultHold := false }
      | .online | .held | .absent => s

/-- A channel loss of section `i`'s status channel (R77). -/
def statusLoss (i : Fin 6) (s : State) : State :=
  let x := s.sects[i]
  if x.present && x.state = .online then
    raise CauseNo.sectionDropped .none (.sect i) none (s.setSect i { x with state := .held })
  else s

/-! ### Thermal factor (R82) -/

/-- A channel update of section `i`'s heatsink channel with value `v` (R82, R50). -/
def heatsinkUpdate (i : Fin 6) (v : Int) (s : State) : State :=
  let x := s.sects[i]
  if !x.present then s
  else match evalCurve s.curves[CurveNo.stack] v with
    | some f => s.setSect i { x with thermal := f, blind := false, curveFallback := false }
    | none => s.setSect i { x with thermal := s.power.sectionBlind, blind := false, curveFallback := true }

/-- A channel loss of section `i`'s heatsink channel (R82, R86). -/
def heatsinkLoss (i : Fin 6) (s : State) : State :=
  let x := s.sects[i]
  if !x.present then s
  else
    raise CauseNo.sectionBlind .derate (.sect i) (some (unsignedFigure s.power.sectionBlind))
      (s.setSect i { x with thermal := s.power.sectionBlind, blind := true, curveFallback := false })

/-- The thermal factor of section `i` is evaluated from its heatsink channel as it stands (R82). -/
def thermalNow (i : Fin 6) (s : State) : State :=
  match chanValue s s.sects[i].heatsink with
  | some v => heatsinkUpdate i v s
  | none => heatsinkLoss i s

/-! ### Round-close work (R79, R80, R83) -/

/-- The state of section `i` after a round close (R79, R80). -/
def closeState (demand : Bool) (x : Sect) : SectState :=
  match x.state with
  | .online | .held => if demand then .isolated else x.state
  | .isolated => if !x.faultHold && !demand then .held else .isolated
  | .absent => .absent

/-- The capability of a section with health factor `h` (R83). -/
def capabilityOf (x : Sect) (h : Nat) : Nat :=
  if x.state = .online then x.rating * x.thermal / 256 * h / 256 else 0

/-- The close work of section `i`: its state by the standing demand, then health factor and
capability (R79, R80, R83). -/
def sectClose (s : State) (i : Fin 6) : Sect :=
  let x := s.sects[i]
  if x.present then
    let y := { x with state := closeState (isolationDemand s i) x, health := derateDemand s i }
    { y with capability := capabilityOf y y.health }
  else x

/-- The section manager's close work. -/
def sectionsClose (s : State) : State :=
  { s with sects := Vector.ofFn (sectClose s) }

/-! ### Commands (R74, R75) -/

/-- The checks of SECTION_RELEASE for section `i`, in order (R74). -/
def releaseChecks (i : Fin 6) (s : State) : List Bool :=
  let x := s.sects[i]
  [s.sup.nacelle = .operating, x.state = .held, s.cool.dry,
    (chanValue s x.status).map nodeStatus = some .ready, usable s x.heatsink]

/-- A taken SECTION_RELEASE (R74). -/
def releaseSect (i : Fin 6) (s : State) : State :=
  s.setSect i { s.sects[i] with state := .online }

/-- The check of SECTION_HOLD for section `i`: ONLINE or HELD (R75). -/
def holdChecks (i : Fin 6) (s : State) : List Bool :=
  [s.sects[i].state = .online || s.sects[i].state = .held]

/-- A taken SECTION_HOLD (R75). -/
def holdSect (i : Fin 6) (s : State) : State :=
  let x := s.sects[i]
  if x.state = .online then s.setSect i { x with state := .held } else s

/-! ### Writes (R70, R73, R87) -/

/-- A taken write of present (R73). -/
def writePresent (i : Fin 6) (on : Bool) (s : State) : State :=
  let x := s.sects[i]
  if on = x.present then s
  else if on then
    thermalNow i (s.setSect i
      { x with present := true, state := .held, faultHold := false, health := 256, capability := 0 })
  else
    s.setSect i { x with present := false, state := .absent, faultHold := false, blind := false,
                         curveFallback := false, capability := 0 }

/-- A taken write of heatsink_channel (R82, R87). -/
def writeHeatsink (i : Fin 6) (ch : Fin 128) (s : State) : State :=
  let t := s.setSect i { s.sects[i] with heatsink := ch }
  if s.sects[i].present then thermalNow i t else t

/-- A taken write of section_blind (R70): every present section at the blind answer takes it at once. -/
def writeSectionBlind (f : Nat) (s : State) : State :=
  { s with
    power := { s.power with sectionBlind := f }
    sects := s.sects.map fun x =>
      if x.present && (x.blind || x.curveFallback) then { x with thermal := f } else x }

/-! ### The section command cell (R85) -/

/-- Payload and flags of section `i`'s command cell: RUN is bit 0, ISOLATE bit 1. -/
def sectCommand (s : State) (i : Fin 6) : Nat × Nat :=
  match s.sects[i].state with
  | .online => if s.sup.nacelle = .test then (0, 0) else (s.power.issued[i], 1)
  | .isolated => (0, 2)
  | .held | .absent => (0, 0)

/-- The warm reset of the section manager (R88). -/
def sectionsWarmReset (s : State) : State :=
  { s with sects := s.sects.map fun x =>
      if x.present then
        { x with state := .held, faultHold := false, thermal := s.power.sectionBlind, blind := true
                 curveFallback := false, health := 256, capability := 0 }
      else
        { x with state := .absent, faultHold := false, thermal := 256, blind := false
                 curveFallback := false, health := 256, capability := 0 } }

end Sys2Proof.Machine
end

