-- ==== Sys2Proof/Machine/YawUnit.lean ====
section
/-! DEFINITION. The yaw unit (07): twist, the misalignment window, the yaw states and their counts. -/

namespace Sys2Proof.Machine

/-! ### Ends of movements -/

/-- The yaw goes to STOPPING: motors off, brake still released, the coast count from 0. With `mark` the
end mark is set, so that the stop ends in HELD (R123). -/
def toStopping (mark : Bool) (s : State) : State :=
  putYaw { s.yaw with
    mode := .stopping, groupB := false, coastCount := 0, endMark := s.yaw.endMark || mark } s

/-- The window is emptied, which makes the judgement FILLING (R113, R114). -/
def Yaw.windowEmptied (y : Yaw) : Yaw :=
  { y with window := [], judgement := .filling, mean := none }

/-- The yaw enters PARKED: the end mark and the unwind mark go off, the start count goes to 0
(R115, R118, R123). -/
def enterParked (s : State) : State :=
  putYaw { s.yaw.unwindLeft with mode := .parked, endMark := false, startCount := 0 } s

/-! ### Twist (R109 to R112) -/

/-- What the yaw does at a hard-limit crossing, by its state (R112). -/
def yawAtCrossing (s : State) : State :=
  match s.yaw.mode with
  | .slewing => toStopping true s
  | .unwinding | .jogging => if s.yaw.phase = .slew then toStopping true s else yawToHeld s
  | .releasing | .parked | .unwindWait => yawToHeld s
  | .stopping | .braking => { s with yaw := { s.yaw with endMark := true } }
  | .held => s

/-- A hard-limit crossing (R112): TWIST_HARD rises, the supervisor takes the twist-hard demand
(R167, R172), which may already have sent it to HELD (R124), and the yaw acts by its state (log 27). -/
def hardCrossing (s : State) : State :=
  yawAtCrossing (stopDemand (.cause CauseNo.twistHard) (clearYawAuto
    (raise CauseNo.twistHard .nacelleStop .none (twistDegrees s.yaw.twist) s)))

/-- An occasion of the hard-limit check: a crossing when the hard condition did not hold before and holds
now (R112). -/
def hardCheck (before : Bool) (s : State) : State :=
  if !before && hardTwist s.yawCfg s.yaw.twist then hardCrossing s else s

/-- In the slew phase of UNWINDING, |twist| at or below unwind_target sends the yaw to STOPPING (R127). -/
def unwindCheck (s : State) : State :=
  if s.yaw.mode = .unwinding ∧ s.yaw.phase = .slew ∧ s.yaw.twist.natAbs ≤ s.yawCfg.unwindTarget then
    toStopping false s
  else s

/-- The motors would drive twist further past the hard limit (R112). -/
def drivesPastHard (s : State) : Bool :=
  inSlew s.yaw && hardTwist s.yawCfg s.yaw.twist && increasesTwist s.yaw.turn s.yaw.twist

/-- No motor drives in the direction that increases |twist| while the hard condition holds (R112). A slew that
finds itself there, by a step of twist across zero from one hard range into the other, stops to end in HELD; the
condition does not begin anew, so nothing rises (log 28). -/
def hardStop (s : State) : State :=
  if drivesPastHard s then toStopping true s else s

/-- Twist advances by `d` (R109); a change is an occasion for the hard-limit check and for the end check
of the unwind. -/
def advanceTwist (d : Int) (s : State) : State :=
  let t := clampTwist (s.yaw.twist + d)
  if t = s.yaw.twist then s
  else
    unwindCheck (hardStop
      (hardCheck (hardTwist s.yawCfg s.yaw.twist) { s with yaw := { s.yaw with twist := t } }))

/-- A channel update of the heading channel with value `v` (R109). It also turns the heading-lost mark
off (R110). -/
def headingUpdate (v : Int) (s : State) : State :=
  let h := headingOf v
  let y := { s.yaw with headingLost := false }
  match y.anchor with
  | none => { s with yaw := { y with anchor := some h } }
  | some a =>
    let d := headingStep h a
    if !y.reanchor && decide (s.yawCfg.maxStep < d.natAbs) then
      raise CauseNo.headingJump .none .none (some (unsignedFigure h)) { s with yaw := y }
    else advanceTwist d { s with yaw := { y with anchor := some h, reanchor := false } }

/-- The states in which a heading loss sends the yaw to HELD (R110). -/
def movingMode : YawMode → Bool
  | .releasing | .slewing | .unwinding | .jogging => true
  | .parked | .stopping | .braking | .unwindWait | .held => false

/-- A channel loss of the heading channel (R110). While the anchor is absent, the record of HEADING_INVALID has no
value (log 31). -/
def headingLoss (s : State) : State :=
  let marked := { s with yaw := { s.yaw with reanchor := true } }
  if movingMode s.yaw.mode then
    raise CauseNo.headingInvalid .yawHold .none (s.yaw.anchor.map unsignedFigure)
      (yawToHeld { s with yaw := { s.yaw with reanchor := true, headingLost := true } })
  else marked

/-- A channel update of the vane channel in SLEWING ends the slew when the value has the sign opposite
the direction, or is within stop_misalign (R121). -/
def vaneUpdate (v : Int) (s : State) : State :=
  let m := misalignment v
  let opposite : Bool := match s.yaw.turn with
    | .cw => decide (m < 0)
    | .ccw => decide (0 < m)
  if s.yaw.mode = .slewing ∧ (opposite ∨ m.natAbs ≤ s.yawCfg.stopMisalign) then toStopping false s else s

/-- A channel loss of the vane channel in SLEWING ends the slew (R121). -/
def vaneLoss (s : State) : State :=
  if s.yaw.mode = .slewing then toStopping false s else s

/-! ### Entries of states -/

/-- Entry to a release in `mode` with direction `d` (R119). The phase is set in RELEASING too, where the manual
keeps none (log 32). -/
def enterRelease (mode : YawMode) (d : Turn) (s : State) : State :=
  putYaw { s.yaw with mode := mode, phase := .release, turn := d, releaseCount := 0 } s

/-- Entry to UNWIND_WAIT (R125): the unwind mark is set, F_y is saved and becomes 0. -/
def enterUnwindWait (s : State) : State :=
  putYaw { s.yaw with
    mode := .unwindWait, unwindMark := true, saved := s.yaw.factor, factor := 0
    idleCount := 0, waitCount := 0 } s

/-- Entry to UNWINDING, in the direction that reduces |twist| (R127). A twist of exactly 0, which has no such
direction, takes CW (log 30). -/
def enterUnwinding (s : State) : State :=
  enterRelease .unwinding (if 0 < s.yaw.twist then .ccw else .cw) s

/-- Entry to a slew with group A on: the counts start at 0 and the stall reference records twist; with
stagger 0 group B is on as well (R120). An unwind whose target is already met stops (R127). The phase is set in
SLEWING too, where the manual keeps none (log 32). -/
def beginSlew (mode : YawMode) (s : State) : State :=
  unwindCheck (putYaw { s.yaw with
    mode := mode, phase := .slew, staggerCount := 0, slewCount := 0, stallCount := 0
    stallRef := s.yaw.twist, groupB := decide (s.yawCfg.stagger = 0) } s)

/-- The slew that a release enters (R119), with the checks made at its entry (R120). -/
def enterSlew (s : State) : State :=
  if hardTwist s.yawCfg s.yaw.twist && increasesTwist s.yaw.turn s.yaw.twist then toStopping true s
  else if s.yaw.mode = .releasing then
    if usable s s.yawCfg.vane then beginSlew .slewing s else toStopping false s
  else beginSlew s.yaw.mode s

/-! ### Counts that reach their setting (R119 to R128) -/

/-- The release condition: release_rounds reached in FIXED mode; in FEEDBACK mode release_min reached
and the brake open (R119). -/
def releaseDone (s : State) : Bool :=
  match s.yawCfg.releaseMode with
  | .fixed => decide (s.yawCfg.releaseRounds ≤ s.yaw.releaseCount)
  | .feedback => decide (s.yawCfg.releaseMin ≤ s.yaw.releaseCount) && brakeOpen s

/-- The end of a release enters its slew (R119). -/
def releaseEnd (s : State) : State :=
  if inRelease s.yaw && releaseDone s then enterSlew s else s

/-- A release that reaches release_max in FEEDBACK mode without an open brake: BRAKE_STUCK rises and the
yaw goes to HELD (R119, R124). -/
def brakeStuck (s : State) : State :=
  if inRelease s.yaw && s.yawCfg.releaseMode = .feedback &&
      decide (s.yawCfg.releaseMax ≤ s.yaw.releaseCount) && !releaseDone s then
    yawToHeld (raise CauseNo.brakeStuck .yawHold .none (some (unsignedFigure s.yaw.releaseCount)) s)
  else s

/-- The stagger count switches motor group B on (R120). -/
def groupBStart (s : State) : State :=
  if inSlew s.yaw && decide (s.yawCfg.stagger ≤ s.yaw.staggerCount) then
    { s with yaw := { s.yaw with groupB := true } }
  else s

/-- The advance of twist over the stall window, in the direction of the slew (R122). -/
def stallAdvance (y : Yaw) : Int :=
  match y.turn with
  | .cw => y.twist - y.stallRef
  | .ccw => y.stallRef - y.twist

/-- The end of a stall window (R122): too little advance raises YAW_STALL and stops the slew, ending in
HELD; otherwise the next window starts. -/
def yawStall (s : State) : State :=
  if inSlew s.yaw && decide (s.yawCfg.stallWindow ≤ s.yaw.stallCount) then
    if stallAdvance s.yaw < s.yawCfg.stallMin then
      toStopping true
        (raise CauseNo.yawStall .yawHold .none (some (signedFigure (stallAdvance s.yaw))) s)
    else { s with yaw := { s.yaw with stallRef := s.yaw.twist, stallCount := 0 } }
  else s

/-- The slew count reaching max_slew in SLEWING raises YAW_OVERTIME and stops the slew (R122). While the anchor is
absent, the record has no value (log 31). -/
def yawOvertime (s : State) : State :=
  if s.yaw.mode = .slewing ∧ s.yawCfg.maxSlew ≤ s.yaw.slewCount then
    toStopping false
      (raise CauseNo.yawOvertime .none .none (s.yaw.anchor.map unsignedFigure) s)
  else s

/-- The slew count reaching the jog's rounds ends the jog (R128). -/
def jogEnd (s : State) : State :=
  if s.yaw.mode = .jogging ∧ s.yaw.phase = .slew ∧ s.yaw.jogRounds ≤ s.yaw.slewCount then
    toStopping false s
  else s

/-- The coast count reaching coast_rounds applies the brake (R123). -/
def coastEnd (s : State) : State :=
  if s.yaw.mode = .stopping ∧ s.yawCfg.coastRounds ≤ s.yaw.coastCount then
    putYaw { s.yaw with mode := .braking, brakeCount := 0 } s
  else s

/-- The brake count reaching brake_rounds enters HELD with the end mark, and otherwise PARKED with the
window emptied (R113, R123). -/
def brakeEnd (s : State) : State :=
  if s.yaw.mode = .braking ∧ s.yawCfg.brakeRounds ≤ s.yaw.brakeCount then
    if s.yaw.endMark then yawToHeld s
    else enterParked { s with yaw := s.yaw.windowEmptied }
  else s

/-- The idle count reaching idle_confirm in UNWIND_WAIT enters UNWINDING (R126). -/
def idleConfirm (s : State) : State :=
  if s.yaw.mode = .unwindWait ∧ s.yawCfg.idleConfirm ≤ s.yaw.idleCount then enterUnwinding s else s

/-- The wait count reaching unwind_wait_max raises UNWIND_BLOCKED and returns the yaw to PARKED with its
factor restored, unless the idle count has reached its own setting (R126). -/
def unwindBlocked (s : State) : State :=
  if s.yaw.mode = .unwindWait ∧ s.yaw.idleCount < s.yawCfg.idleConfirm ∧
      s.yawCfg.unwindWaitMax ≤ s.yaw.waitCount then
    enterParked (raise CauseNo.unwindBlocked .none .none (twistDegrees s.yaw.twist) s)
  else s

/-! ### The misalignment window and the automatic start (R113 to R118) -/

/-- The vane's entry at a tick: its misalignment, or INVALID while the channel is unusable (R113). -/
def vaneEntry (s : State) : Option Int :=
  (chanValue s s.yawCfg.vane).map misalignment

/-- An entry joins at the newest end; a full window loses its oldest (R113). -/
def joinWindow (e : Option Int) (w : List (Option Int)) : List (Option Int) :=
  (if w.length < Config.windowCapacity then w else w.tail) ++ [e]

/-- The valid entries of a window. -/
def validEntries (w : List (Option Int)) : List Int :=
  w.filterMap id

/-- The judgement of a window with `minValid` as it stands (R114). -/
def judge (minValid : Nat) (w : List (Option Int)) : Judgement :=
  if minValid ≤ (validEntries w).length then .valid
  else if w.length < minValid then .filling
  else .blind

/-- The mean of the valid entries, truncated toward zero (R114). -/
def windowMean (w : List (Option Int)) : Int :=
  (validEntries w).sum.tdiv (validEntries w).length

/-- The yaw factor a judgement gives with the unwind mark off (R115). -/
def factorAt (s : State) (j : Judgement) (mean : Int) : Nat :=
  match j with
  | .valid => (evalCurve s.curves[CurveNo.misalign] mean.natAbs).getD s.yawCfg.yawBlind
  | .blind => s.yawCfg.yawBlind
  | .filling => s.yaw.factor

/-- The vane joins the window, which is judged and sets F_y; a BLIND judgement raises VANE_BLIND
(R113 to R115). -/
def judgeWindow (s : State) : State :=
  let w := joinWindow (vaneEntry s) s.yaw.window
  let j := judge s.yawCfg.minValid w
  let m := windowMean w
  let t := { s with yaw := { s.yaw with
    window := w, judgement := j, mean := if j = .valid then some m else none
    factor := if s.yaw.unwindMark then s.yaw.factor else factorAt s j m } }
  if j = .blind then
    raise CauseNo.vaneBlind .none .none (some (unsignedFigure (validEntries w).length)) t
  else t

/-- The start condition of a tick, with the mean's sign (R118). -/
def startSign (s : State) : Option Bool :=
  match s.yaw.mean with
  | some m =>
    if s.sup.mode.yawAuto && yawPermitted s && s.yaw.judgement = .valid &&
        decide (s.yawCfg.startMisalign ≤ m.natAbs) then some (decide (0 < m)) else none
  | none => none

/-- The start count at a tick in PARKED (R118). -/
def startCounting (s : State) : State :=
  if s.yaw.mode = .parked then
    match startSign s with
    | some p =>
      { s with yaw := { s.yaw with
          startCount := if s.yaw.startPositive = p then s.yaw.startCount + 1 else 1
          startPositive := p } }
    | none => { s with yaw := { s.yaw with startCount := 0 } }
  else s

/-- The start count reaching start_ticks takes a start: a slew, an unwind wait, or no start while
UNWIND_BLOCKED is pending (R118). A start of movement needs the yaw permitted as it stands then (R116); within a tick
the count has just asked the same. -/
def automaticStart (s : State) : State :=
  if s.yaw.mode = .parked ∧ s.yawCfg.startTicks ≤ s.yaw.startCount ∧ yawPermitted s = true then
    let t := { s with yaw := { s.yaw with startCount := 0 } }
    let d : Turn := if s.yaw.startPositive then .cw else .ccw
    if increasesTwist d s.yaw.twist && decide (s.yawCfg.unwindThreshold ≤ s.yaw.twist.natAbs) then
      if s.causes[CauseNo.unwindBlocked].pending then t else enterUnwindWait t
    else enterRelease .releasing d t
  else s

/-- A decimation tick, when the tick counter has reached yaw_decim (R113). -/
def decimationTick (s : State) : State :=
  if s.yawCfg.yawDecim ≤ s.yaw.tickCount then
    automaticStart (startCounting (judgeWindow { s with yaw := { s.yaw with tickCount := 0 } }))
  else s

/-! ### Round-close work (R113, R119 to R128) -/

/-- A close at which the converter is idle (R126). -/
def idleClose (s : State) : Bool :=
  yawPermitted s && decide (s.power.issuedSum = 0) &&
    (List.finRange 6).all fun i =>
      decide (s.sects[i].state ≠ .online) ||
        match chanValue s s.sects[i].feedback with
        | some v => decide (v.natAbs ≤ s.yawCfg.idleBand)
        | none => false

/-- The counts of the present state advance by one, and those that reach their setting act
(R119 to R128). -/
def yawTimers (s : State) : State :=
  let y := s.yaw
  if inRelease y then
    brakeStuck (releaseEnd { s with yaw := { y with releaseCount := y.releaseCount + 1 } })
  else if inSlew y then
    jogEnd (yawOvertime (yawStall (groupBStart { s with yaw := { y with
      staggerCount := y.staggerCount + 1, slewCount := y.slewCount + 1, stallCount := y.stallCount + 1 } })))
  else match y.mode with
    | .stopping => coastEnd { s with yaw := { y with coastCount := y.coastCount + 1 } }
    | .braking => brakeEnd { s with yaw := { y with brakeCount := y.brakeCount + 1 } }
    | .unwindWait => unwindBlocked (idleConfirm { s with yaw := { y with
        idleCount := if idleClose s then y.idleCount + 1 else 0
        waitCount := y.waitCount + 1 } })
    | _ => s

/-- The yaw unit's close work: the state timers first, and the tick after them (R113). -/
def yawClose (s : State) : State :=
  let t := yawTimers s
  decimationTick { t with yaw := { t.yaw with tickCount := t.yaw.tickCount + 1 } }

/-! ### The YAW command cell (R117) -/

/-- Value and flags of the YAW command cell: 1 for group A, 2 for group B, 4 for CCW; BRAKE_RELEASE is
bit 2 of the flags. -/
def yawCommand (y : Yaw) : Nat × Nat :=
  let slew := inSlew y
  let turning := match y.mode with
    | .parked | .unwindWait | .held => false
    | .releasing | .slewing | .stopping | .braking | .unwinding | .jogging => true
  ((if slew then 1 else 0) + (if slew && y.groupB then 2 else 0) +
      (if turning && y.turn = .ccw then 4 else 0),
    if brakeApplied y.mode then 0 else 4)

/-! ### Commands and writes -/

/-- The checks of YAW_RESUME in order (R124). -/
def resumeChecks (s : State) : List Bool :=
  [s.yaw.mode = .held, nacellePermits s, !s.ring.broken, s.yaw.twistKnown,
    usable s s.yawCfg.heading, !yawHoldStands s]

/-- The checks of YAW_UNWIND in order (R125). -/
def unwindChecks (s : State) : List Bool :=
  [s.yaw.mode = .parked, nacellePermits s, !s.ring.broken, s.yaw.twistKnown,
    usable s s.yawCfg.heading, decide (s.yawCfg.unwindTarget < s.yaw.twist.natAbs)]

/-- The checks of YAW_JOG in direction `d` in order (R128). -/
def jogChecks (d : Turn) (s : State) : List Bool :=
  [s.yaw.mode = .parked, !s.sup.mode.yawAuto, nacellePermits s, !s.ring.broken, s.yaw.twistKnown,
    usable s s.yawCfg.heading, !(hardTwist s.yawCfg s.yaw.twist && increasesTwist d s.yaw.twist)]

/-- A taken YAW_JOG (R128). -/
def beginJog (d : Turn) (rounds : Nat) (s : State) : State :=
  enterRelease .jogging d { s with yaw := { s.yaw with jogRounds := rounds } }

/-- A taken write of twist (R111), an occasion of the hard-limit check (R112). -/
def writeTwist (z : Int) (s : State) : State :=
  hardCheck (hardTwist s.yawCfg s.yaw.twist)
    { s with yaw := { s.yaw with twist := clampTwist z, twistKnown := true } }

/-- A taken write of the yaw settings (R107): a write of heading_channel makes the anchor absent and the
reanchor mark off (R109), and a write of twist_hard is an occasion of the hard-limit check (R112). -/
def writeYawSettings (cfg : YawSettings) (headingWritten : Bool) (s : State) : State :=
  let y := if headingWritten then { s.yaw with anchor := none, reanchor := false } else s.yaw
  hardCheck (hardTwist s.yawCfg s.yaw.twist) { s with yawCfg := cfg, yaw := y }

/-- The consistency checks of the yaw settings (R107). -/
def yawSettingsConsistent (c : YawSettings) : Bool :=
  decide (c.unwindTarget < c.unwindThreshold ∧ c.unwindThreshold ≤ c.twistHard ∧ c.releaseMin ≤ c.releaseMax)

/-- The warm column of R130. -/
def yawWarmReset (s : State) : State :=
  putYaw { s.yaw.windowEmptied.countsCleared with
    mode := .held, phase := .release, turn := .cw, endMark := false, unwindMark := false
    groupB := false, startCount := 0, tickCount := 0, reanchor := true, headingLost := false
    saved := s.yawCfg.yawBlind, factor := s.yawCfg.yawBlind } s

end Sys2Proof.Machine
end

