-- ==== Sys2Proof/Machine/ChannelUnit.lean ====
section
/-! DEFINITION. The channel unit (02): window matching, narrow pairs, processing of codes, channel updates
and losses with their readers, staleness, forces and configuration writes. -/

namespace Sys2Proof.Machine

/-! ### Readers of a channel (R36, R38) -/

/-- One thing that a channel update or loss brings about: a cause that the channel unit itself raises
with the channel as subject, or the work of one reader. -/
inductive Reader where
  | own (c : Fin 128) (value : Half)
  | limit (i : Fin 96)
  | heatsink (i : Fin 6)
  | status (i : Fin 6)
  | heading
  | vane
  | cooling
  deriving DecidableEq, Repr

/-- The readers of channel `ch`: the enabled limits on it, the present sections bound to it, the yaw unit
and the cooling unit (R38). -/
def readersOf (s : State) (ch : Fin 128) : List Reader :=
  (allIdx fun i : Fin 96 => s.limits[i].enable && s.limits[i].channel = ch).map .limit
    ++ (allIdx fun i : Fin 6 => s.sects[i].present && s.sects[i].heatsink = ch).map .heatsink
    ++ (allIdx fun i : Fin 6 => s.sects[i].present && s.sects[i].status = ch).map .status
    ++ (if s.yawCfg.heading = ch then [.heading] else [])
    ++ (if s.yawCfg.vane = ch then [.vane] else [])
    ++ (if marginInput s ch then [.cooling] else [])

/-- What a reader does at a channel update of `ch` with value `v` (R36). -/
def updateWork (ch : Fin 128) (v : Int) : Reader → State → State
  | .own c value, s => raise c .none (.channel ch) (some value) s
  | .limit i, s => evaluateLimit i v s
  | .heatsink i, s => heatsinkUpdate i v s
  | .status i, s => statusUpdate i v s
  | .heading, s => headingUpdate v s
  | .vane, s => vaneUpdate v s
  | .cooling, s => coolingUpdate ch v s

/-- What a reader does at a channel loss of `ch`; `empty` marks a loss that leaves it EMPTY (R36). -/
def lossWork (ch : Fin 128) (empty : Bool) : Reader → State → State
  | .own c value, s => raise c .none (.channel ch) (some value) s
  | .limit i, s => limitLoss i empty s
  | .heatsink i, s => heatsinkLoss i s
  | .status i, s => statusLoss i s
  | .heading, s => headingLoss s
  | .vane, s => vaneLoss s
  | .cooling, s => coolingLoss ch s

/-- A channel update is handed out, with the rises `own` of the channel unit, in an open order
(log 2). -/
def giveUpdate (ch : Fin 128) (v : Int) (own : List Reader) (s : State) : State :=
  inOpenOrder (own ++ readersOf s ch) (updateWork ch v) s

/-- A channel loss is handed out, with the rises `own` of the channel unit, in an open order
(log 2). -/
def giveLoss (ch : Fin 128) (empty : Bool) (own : List Reader) (s : State) : State :=
  inOpenOrder (own ++ readersOf s ch) (lossWork ch empty) s

/-! ### Windows (R20 to R23) -/

/-- Slot `slot` lies in the span of the window. -/
def Window.spans (w : Window) (slot : Nat) : Bool :=
  decide (w.base ≤ slot ∧ slot < w.base + w.size)

/-- The owner of a slot: the lowest-numbered enabled window whose span contains it (R21). -/
def ownerOf (s : State) (slot : Nat) : Option (Fin 32) :=
  lowestIdx fun i : Fin 32 => s.windows[i].enable && s.windows[i].spans slot

/-- Slots per channel of a width (R22). -/
def slotsPerChannel : Width → Nat
  | .wide => 1
  | .narrow => 2

/-- The number of the channel that a slot of the window feeds (R22). -/
def fedChannel (w : Window) (slot : Nat) : Nat :=
  w.firstChannel.val + (slot - w.base) / slotsPerChannel w.width

/-- The number of channels a window reaches (R22). -/
def channelsReached (w : Window) : Nat :=
  w.size / slotsPerChannel w.width

/-- A window reaches channel `ch` (R22). -/
def Window.reaches (w : Window) (ch : Fin 128) : Bool :=
  decide (w.firstChannel ≤ ch ∧ ch.val < w.firstChannel.val + channelsReached w)

/-- The stale default of a channel (R29). -/
def staleDefault (s : State) (ch : Fin 128) : Nat :=
  match lowestIdx fun i : Fin 32 => s.windows[i].enable && s.windows[i].reaches ch with
  | some i => max 40 (4 * s.windows[i].interval)
  | none => 40

/-- The consistency checks of an enabled window (R23). -/
def windowConsistent (s : State) (w : Window) : Bool :=
  decide (w.base % w.size = 0) &&
    (w.width = .wide || decide (2 ≤ w.size)) &&
    decide (w.firstChannel.val + channelsReached w ≤ 128) &&
    !someIdx fun k : Fin 16 => s.plan[k].enable && w.spans s.plan[k].slot

/-! ### Processing a code (R31 to R35) -/

/-- A code that is dealt with as invalid (R32); `seen` is the channel with the code recorded. -/
def codeInvalid (ch : Fin 128) (code : Half) (seen : Channel) (s : State) : State :=
  match seen.state with
  | .invalid => s.setChannel ch seen
  | .live =>
    giveLoss ch false [.own CauseNo.channelInvalid code] (s.setChannel ch { seen with state := .invalid })
  | .stale | .empty =>
    raise CauseNo.channelInvalid .none (.channel ch) (some code)
      (s.setChannel ch { seen with state := .invalid })

/-- A code that is processed to the value `v`, with the rises that go with it (R33, R35, R36). -/
def codeValue (ch : Fin 128) (v : Int) (own : List Reader) (seen : Channel) (s : State) : State :=
  giveUpdate ch v own (s.setChannel ch { seen with state := .live, value := v })

/-- The channel with a code recorded (R31). -/
def recordCode (s : State) (c : Channel) (code : Half) : Channel :=
  { c with lastCode := code, stamp := s.ring.extCount, quiet := 0, gotCode := true }

/-- Processing of a code for channel `ch` (R31 to R35). -/
def processCode (ch : Fin 128) (code : Half) (good : Bool) (s : State) : State :=
  let c := s.channels[ch]
  let seen := recordCode s c code
  if !c.configured then s
  else if c.forced then s.setChannel ch seen
  else if !good then codeInvalid ch code seen s
  else match remapMatch c code with
    | some e =>
      match e.action with
      | .invalid => codeInvalid ch code seen s
      | .substitute => codeValue ch e.substitute [] seen s
    | none =>
      let z := scaled c code
      let v := clampInt c.clampLow c.clampHigh z
      codeValue ch v (if v = z then [] else [.own CauseNo.channelClamped code]) seen s

/-! ### Reading a mapped slot (R25 to R28) -/

/-- A wrong kind in a mapped slot (R25). -/
def wrongKind (pos : Nat) (s : State) : State :=
  raise CauseNo.slotClash .none .none (portFigure 1 pos) s

/-- An incomplete pair of channel `ch` (R27, R28). -/
def pairIncomplete (ch : Fin 128) (slot : Nat) (s : State) : State :=
  raise CauseNo.pairIncomplete .none (.channel ch) (some (unsignedFigure slot)) s

/-- The held low half is discarded as incomplete, with `slot` as value (R27, R28). -/
def discardHalf (h : LowHalf) (slot : Nat) (s : State) : State :=
  pairIncomplete h.ch slot { s with lowHalf := none }

/-- The slot `pos` of channel `ch` in window `w` is the odd slot of the held half's pair (R27). -/
def completes (h : LowHalf) (ch : Fin 128) (pos : Nat) : Bool :=
  decide (pos = h.slot + 1) && h.ch = ch

/-- A slot of a WIDE window (R25). -/
def wideSlot (ch : Fin 128) (x : SlotContent) (pos : Nat) (s : State) : State :=
  match x with
  | .sample code good => processCode ch code good s
  | .wrongKind => wrongKind pos s
  | .idle | .absent => s

/-- An even-offset slot of a NARROW window (R26). -/
def evenSlot (ch : Fin 128) (x : SlotContent) (pos : Nat) (s : State) : State :=
  match x with
  | .sample code good =>
    { s with lowHalf := some { slot := pos, ch, octet := code.extractLsb' 0 8, good } }
  | .wrongKind => wrongKind pos s
  | .idle | .absent => s

/-- An odd-offset slot of a NARROW window (R27). -/
def oddSlot (ch : Fin 128) (x : SlotContent) (pos : Nat) (s : State) : State :=
  let missing : State → State := fun t =>
    match t.lowHalf with
    | some h => discardHalf h pos t
    | none => t
  match x with
  | .sample code good =>
    match s.lowHalf with
    | some h => processCode ch (code.extractLsb' 0 8 ++ h.octet) (good && h.good) { s with lowHalf := none }
    | none => pairIncomplete ch pos s
  | .wrongKind => missing (wrongKind pos s)
  | .idle | .absent => missing s

/-- A held half that the arriving slot does not complete is discarded first (R27). -/
def settleHalf (keep : LowHalf → Bool) (s : State) : State :=
  match s.lowHalf with
  | some h => if keep h then s else discardHalf h (h.slot + 1) s
  | none => s

/-- A node slot is handed over to the channel unit (R21, R22, R25 to R27). -/
def handOver (x : SlotContent) (pos : Nat) (s : State) : State :=
  match ownerOf s pos with
  | none => settleHalf (fun _ => false) s
  | some i =>
    let w := s.windows[i]
    let ch : Fin 128 := Fin.ofNat 128 (fedChannel w pos)
    match w.width with
    | .wide => wideSlot ch x pos (settleHalf (fun _ => false) s)
    | .narrow =>
      if (pos - w.base) % 2 = 0 then evenSlot ch x pos (settleHalf (fun _ => false) s)
      else oddSlot ch x pos (settleHalf (fun h => completes h ch pos) s)

/-! ### Staleness (R37) -/

/-- Channel `ch`, which stood in the state `was`, has become STALE: CHANNEL_STALE rises with the record value
`value`, and a channel taken out of LIVE hands out its loss (R36, R41). -/
def leftForStale (was : ChanState) (ch : Fin 128) (value : Half) (s : State) : State :=
  if was = .live then giveLoss ch false [.own CauseNo.channelStale value] s
  else raise CauseNo.channelStale .none (.channel ch) (some value) s

/-- Channel `ch`, with the record `c`, becomes STALE with the record value `value` (R36, R37, R41). -/
def makeStale (ch : Fin 128) (value : Half) (c : Channel) (s : State) : State :=
  leftForStale c.state ch value (s.setChannel ch { c with state := .stale })

/-- A LIVE channel, configured and not forced, has been quiet for its stale_rounds (R37). -/
def goesStale (s : State) (ch : Fin 128) : Bool :=
  let c := s.channels[ch]
  c.configured && !c.forced && c.state = .live && decide (c.staleRounds ≤ c.quiet)

/-- The quiet count of channel `ch` reaching stale_rounds (R37). -/
def channelStale (ch : Fin 128) (s : State) : State :=
  if goesStale s ch then
    makeStale ch (unsignedFigure s.channels[ch].staleRounds) s.channels[ch] s
  else s

/-- The quiet count of a channel at a round close (R37). -/
def quietClose (c : Channel) : Channel :=
  { c with
    quiet := if c.configured && !c.forced && !c.gotCode then min (c.quiet + 1) Config.countStop else c.quiet
    gotCode := false }

/-- The parts of the channel unit's close work whose order is open. -/
inductive ChannelClose where
  | half (h : LowHalf)
  | stale (ch : Fin 128)
  deriving DecidableEq, Repr

/-- One part of the channel unit's close work (R28, R37). -/
def channelCloseWork : ChannelClose → State → State
  | .half h, s => discardHalf h h.slot s
  | .stale ch, s => channelStale ch s

/-- The channel unit's close work: a low half still held is discarded (R28), quiet counts, and the
channels whose count has reached stale_rounds become STALE (R37). -/
def channelsClose (s : State) : State :=
  let t := { s with channels := s.channels.map quietClose }
  let half : List ChannelClose := match t.lowHalf with
    | some h => [.half h]
    | none => []
  inOpenOrder (half ++ (allIdx (goesStale t)).map .stale) channelCloseWork t

/-! ### Configuration writes (R29, R39) and forces (R170) -/

/-- The limits on channel `ch` leave UNBOUND at a write of definition CONFIGURED (R61). -/
def bindLimits (ch : Fin 128) (s : State) : State :=
  (allIdx fun i : Fin 96 => s.limits[i].channel = ch).foldl (fun t i => limitBound i t) s

/-- What a taken configuration write of channel `ch` does to its runtime (R29, R39); `c` is the record
with the new field and the runtime as it stood. -/
def channelWritten (ch : Fin 128) (c : Channel) (s : State) : State :=
  let old := s.channels[ch]
  match old.configured, c.configured with
  | false, false => s.setChannel ch c
  | true, false =>
    giveLoss ch true [] (s.setChannel ch { c with state := .empty, value := 0, forced := false })
  | false, true =>
    bindLimits ch (raise CauseNo.channelStale .none (.channel ch) (some 0)
      (s.setChannel ch { c with
        staleRounds := staleDefault s ch, state := .stale, quiet := 0, forced := false }))
  | true, true =>
    let d := { c with quiet := 0, forced := false }
    if old.state = .stale then s.setChannel ch d else makeStale ch 0 d s

/-- A force is set, or its value changed (R170, R36). -/
def setForce (ch : Fin 128) (v : Int) (s : State) : State :=
  giveUpdate ch v [] (s.setChannel ch { s.channels[ch] with forced := true, state := .live, value := v })

/-- A force is released (R170, R36). -/
def releaseForce (ch : Fin 128) (s : State) : State :=
  if s.channels[ch].forced then
    makeStale ch 0 { s.channels[ch] with forced := false, quiet := 0 } s
  else s

/-- The runtime of a channel after a warm reset (R40). -/
def channelWarm (c : Channel) : Channel :=
  { c with state := if c.configured then .stale else .empty, value := 0, quiet := 0, forced := false }

/-- The warm reset of the channel unit (R40). Each CONFIGURED channel that was not STALE has become STALE, with
record value 0 (R41), and hands out its loss if it was LIVE (R36), in an open order (log 2). -/
def channelsWarmReset (s : State) : State :=
  inOpenOrder (allIdx fun ch : Fin 128 => s.channels[ch].configured && s.channels[ch].state ≠ .stale)
    (fun ch => leftForStale s.channels[ch].state ch 0)
    { s with channels := s.channels.map channelWarm, lowHalf := none }

end Sys2Proof.Machine
end

