-- ==== Sys2Proof/Machine/Close.lean ====
section
/-! DEFINITION. Round closes (R12 to R14, R17): the ring interface's part, the node-ring break, and the
close work of every block. -/

namespace Sys2Proof.Machine

/-! ### Node-ring break (R14) -/

/-- The lapse counter calls for the break condition to begin (R14). -/
def breakDue (s : State) : Bool :=
  decide (Config.breakLapses ≤ s.ring.lapses) && !s.ring.broken

/-- The node-ring break condition begins (R14): RING_BREAK rises, run_enable is cleared and the nacelle
stops (R167, R172), ONLINE sections are held (R81) and the yaw goes to HELD (R124). -/
def ringBreak (s : State) : State :=
  if breakDue s then
    yawToHeld (holdOnline (stopDemand (.cause CauseNo.ringBreak) (clearRunEnable
      (raise CauseNo.ringBreak .nacelleStop .none (some (unsignedFigure s.ring.lapses))
        { s with ring := { s.ring with broken := true } }))))
  else s

/-- The return count has reached 16: the break condition ends and the count goes to 0 (R14). -/
def ringBreakEnd (s : State) : State :=
  if s.ring.broken && decide (Config.breakReturns ≤ s.ring.returns) then
    { s with ring := { s.ring with broken := false, returns := 0 } }
  else s

/-! ### Rejoining (R17) -/

/-- An island round has closed with the rejoin counter at 16 or more: the ring is FOLLOWING again (R17). The
tower-loss timer runs from the most recently accepted tower head. -/
def rejoinComplete (s : State) : State :=
  if s.ring.mode = .rejoining ∧ Config.rejoinHeads ≤ s.ring.rejoin ∧ s.ring.roundOut = none then
    { s with ring := { s.ring with
        mode := .following, rejoin := 0
        towerTimer := match s.ring.lastHead with
          | some h => h.time
          | none => s.ring.towerTimer } }
  else s

/-! ### The blocks' close work -/

/-- The blocks that do close work, and the start of the node-ring break. -/
inductive Block | channels | sections | power | yaw | cooling | ringBreak
  deriving DecidableEq, Repr

/-- The close work of one block. -/
def blockClose : Block → State → State
  | .channels, s => channelsClose s
  | .sections, s => sectionsClose s
  | .power, s => powerClose s
  | .yaw, s => yawClose s
  | .cooling, s => coolingClose s
  | .ringBreak, s => ringBreak s

/-- Every block does its close work, in an open order (R12, R94; log 2). -/
def blocksClose (s : State) : State :=
  inOpenOrder ([Block.channels, .sections, .power, .yaw, .cooling] ++
    if breakDue s then [.ringBreak] else []) blockClose s

/-- What every close does in the ring interface and the management unit: the round out is cleared, the
extended round count advances (R12, R13), and neither a reply nor a record in delivery outlives the round
(R174, R160). -/
def roundCleared (s : State) : State :=
  { s with
    ring := { s.ring with roundOut := none, extCount := s.ring.extCount + 1 }
    reply := none
    reports := { s.reports with delivering := false } }

/-- The ring interface's counters at a close by return (R12, R14). -/
def returnCounted (s : State) : State :=
  let r := s.ring
  { s with ring := { r with lapses := 0, returns := if r.broken then r.returns + 1 else r.returns } }

/-- A round closes by return (R12): the ring interface's part first (log 22), then the blocks. -/
def closeByReturn (s : State) : State :=
  blocksClose (rejoinComplete (ringBreakEnd (returnCounted (roundCleared s))))

/-- The position of the last cell taken from node-in, 0 when the head had not returned (R18). -/
def lastTaken (o : RoundOut) : Nat :=
  if o.headReturned then o.nextPos - 1 else 0

/-- The counters and the cause of a lapse of the round `o` (R13). -/
def lapseCounted (o : RoundOut) (s : State) : State :=
  raise CauseNo.roundLapse .none .none (some (unsignedFigure (lastTaken o)))
    { s with ring := { s.ring with lapses := s.ring.lapses + 1, returns := 0 } }

/-- A round out lapses (R13): the ring interface's part first (log 22), then the blocks. With no round
out nothing lapses. -/
def lapseRound (s : State) : State :=
  match s.ring.roundOut with
  | some o => blocksClose (rejoinComplete (lapseCounted o (roundCleared s)))
  | none => s

end Sys2Proof.Machine
end

