-- ==== Sys2Proof/Machine/CauseUnit.lean ====
section
/-! DEFINITION. The cause unit (09): CLEAR, injection, enables, delivery of records, and resets. Raising a
cause stands in Ops, conditions and summaries in Flags. -/

namespace Sys2Proof.Machine

/-! ### CLEAR (R155) -/

/-- The causes of group `g` named by the low 16 bits of `set` that are assigned, ascending (R183). -/
def namedCauses (g : Fin 8) (set : Word) : List (Fin 128) :=
  allIdx fun c : Fin 128 =>
    decide (c.val / 16 = g.val) && set.getLsbD (c.val % 16) && causeKind c ≠ .unassigned

/-- Step 1 of a CLEAR for cause `c` (R155): its marks go off, a limit cause is handed to the limit unit,
and the overflow flag goes OFF at a CLEAR of REPORT_OVERFLOW with the queue empty (R161). -/
def clearStep1 (c : Fin 128) (s : State) : State :=
  let t := s.setCause c { s.causes[c] with pending := false, injected := false }
  if isLimitCause c then limitsAtClear c t
  else if c = CauseNo.reportOverflow ∧ t.reports.queue = [] then
    { t with reports := { t.reports with overflow := false } }
  else t

/-- A LEVEL cause whose condition holds rises again with the record of R154. -/
def riseAgain (c : Fin 128) (s : State) : State :=
  if causeCondition c s then
    let f := risenRecord c s
    raise c f.action f.subject f.value s
  else s

/-- A CLEAR of the causes `l`: step 1 for each in ascending number, then step 2 for each (R155). -/
def clearCauses (l : List (Fin 128)) (s : State) : State :=
  l.foldl (fun t c => riseAgain c t) (l.foldl (fun t c => clearStep1 c t) s)

/-! ### Injection (R162) -/

/-- A taken injection of cause `c`: the injected mark of a LEVEL cause goes ON, and the cause rises with
action TEST, no subject and no value. -/
def injectCause (c : Fin 128) (s : State) : State :=
  raise c .test .none none
    (if causeKind c = .level then s.setCause c { s.causes[c] with injected := true } else s)

/-! ### Delivery (R160) -/

/-- The report queue is to be drained (R11). -/
def drains (s : State) : Bool :=
  s.ring.mode = .following && !s.sup.mode.reportHold && !s.reports.queue.isEmpty

/-- The record in delivery leaves the queue (R160). -/
def recordLeaves (s : State) : State :=
  { s with reports := { s.reports with queue := s.reports.queue.tail, delivering := false } }

/-! ### Resets (R164) -/

/-- The warm reset of the cause unit, before the rises (R164). -/
def causesWarmReset (s : State) : State :=
  { s with
    causes := s.causes.map fun c : Cause => { c with pending := false, injected := false }
    reports := { queue := [], overflow := false, delivering := false } }

/-- The causes that rise after a reset. -/
def holdingCauses (s : State) : List (Fin 128) :=
  allIdx fun c : Fin 128 => causeCondition c s

/-- Every LEVEL cause whose condition holds rises, with the record of R154, in an open order (R164; log 2). -/
def resetRises (s : State) : State :=
  inOpenOrder (holdingCauses s) riseAgain s

end Sys2Proof.Machine
end

