-- ==== Sys2Proof/Machine/Supervisor.lean ====
section
/-! DEFINITION. The supervisor (10): START, STOP, TEST, forcing, the warm reset, the local lines and the
mode record. -/

namespace Sys2Proof.Machine

/-! ### START (R166) -/

/-- The seven checks of START in order (R166). -/
def startChecks (s : State) : List Bool :=
  [!s.ring.broken, !s.lines.estopIn, decide (0 < s.power.rating),
    (List.finRange 5).all (fun i => s.curves[i].isSet), !stopLimitUnbound s, !stopLimitTripped s,
    !s.causes[CauseNo.twistHard].pending]

/-- The number with which START is refused: 0 in OPERATING and TEST, otherwise the first failing check
(R166). -/
def startRefusal (s : State) : Option Nat :=
  match s.sup.nacelle with
  | .operating | .test => some 0
  | .loading | .stopped => firstFailing (startChecks s)

/-- A taken START (R166). -/
def startNacelle (s : State) : State :=
  putNacelle .operating .none s

/-! ### TEST (R169, R170) -/

/-- The checks of TEST_ENTER in order (R169). -/
def testEnterChecks (s : State) : List Bool :=
  [s.sup.nacelle = .loading || s.sup.nacelle = .stopped, yawAtRest s]

/-- A taken TEST_ENTER (R169): TEST with no stop reason, TEST_ACTIVE rises, and the yaw goes to HELD
(R124). -/
def enterTest (s : State) : State :=
  yawToHeld (raise CauseNo.testActive .test .none none (putNacelle .test .none s))

/-- The check of every command that is taken in TEST alone. -/
def inTest (s : State) : Bool :=
  s.sup.nacelle = .test

/-- The forced set (R170). -/
def forcedSet (s : State) : List (Fin 128) :=
  allIdx fun ch : Fin 128 => s.channels[ch].forced

/-- A taken TEST_EXIT (R169): every force is released in an open order (log 2), the nacelle enters STOPPED
with reason MANAGEMENT, and the misalignment window is emptied (R113). -/
def exitTest (s : State) : State :=
  let t := putNacelle .stopped .management (inOpenOrder (forcedSet s) releaseForce s)
  { t with yaw := t.yaw.windowEmptied }

/-! ### RESTART (R171) -/

/-- The supervisor's part of a warm reset (R171). -/
def supervisorWarmReset (s : State) : State :=
  putNacelle .loading .none { s with sup := { s.sup with mode := Mode.cold } }

/-- The two parts of a warm reset whose order shows: the channel unit, which hands out channel losses (R36),
and the blocks that they reach. -/
inductive ResetPart | channelUnit | otherBlocks
  deriving DecidableEq, Repr

/-- The warm reset of the blocks but the channel unit. None of these reads what another of them resets. -/
def othersWarmReset (s : State) : State :=
  supervisorWarmReset (yawWarmReset (coolingWarmReset (powerWarmReset (sectionsWarmReset
    (limitsWarmReset (causesWarmReset s))))))

/-- One part of a warm reset. -/
def resetPart : ResetPart → State → State
  | .channelUnit => channelsWarmReset
  | .otherBlocks => othersWarmReset

/-- The warm reset of every block, and then the rises of the cause unit (R164, R171). The channel unit, with the
losses it hands out, is reached before the other blocks or after them, an open order (log 2); the reset values
hold in either (log 16). The ring interface, the slot map, the curves, the command plan and the enables are
kept (R19, R24, R42, R182, R164). -/
def warmReset (s : State) : State :=
  resetRises (inOpenOrder [.channelUnit, .otherBlocks] resetPart { s with reply := none })

/-! ### The local lines (R168, R173) -/

/-- ESTOP_IN becomes asserted: EXTERNAL_STOP rises and the supervisor takes a stop demand (R168). -/
def estopOn (s : State) : State :=
  if s.lines.estopIn then s
  else stopDemand (.cause CauseNo.externalStop) (raise CauseNo.externalStop .nacelleStop .none none
    { s with lines := { s.lines with estopIn := true } })

/-- ESTOP_IN becomes deasserted (R168). -/
def estopOff (s : State) : State :=
  { s with lines := { s.lines with estopIn := false } }

/-! ### The mode record (R172, R180) -/

/-- The mode record coded as a read gives it (R180). -/
def modeWord (m : Mode) : Word :=
  BitVec.ofNat 32 ((if m.runEnable then 1 else 0) + (if m.yawAuto then 2 else 0) +
    (if m.reportHold then 4 else 0) + (if m.coolingManual then 8 else 0) + 16 * m.manualStage +
    (if m.altered then 256 else 0))

/-- The manual_stage a written value asks for: bits 7..4 (R180). -/
def askedStage (w : Word) : Nat :=
  (w.extractLsb' 4 4).toNat

/-- The mode record after a taken write at effective authority `a` (R180). -/
def modeWritten (a : Authority) (w : Word) (m : Mode) : Mode :=
  let service := a.reaches .service
  { runEnable := w.getLsbD 0
    yawAuto := w.getLsbD 1
    reportHold := w.getLsbD 2
    coolingManual := if service then w.getLsbD 3 else m.coolingManual
    manualStage := if service then min (askedStage w) 4 else m.manualStage
    altered := false }

/-- An applied manual_stage was clamped (R180). -/
def modeAdjusted (a : Authority) (w : Word) : Bool :=
  a.reaches .service && decide (4 < askedStage w)

/-- A field was left for want of authority while the write asked for another value (R180). -/
def modePartial (a : Authority) (w : Word) (m : Mode) : Bool :=
  !a.reaches .service && (w.getLsbD 3 != m.coolingManual || decide (askedStage w ≠ m.manualStage))

end Sys2Proof.Machine
end

