-- ==== Sys2Proof/Machine/Tables.lean ====
section
/-! DEFINITION. The tables of the management unit (R179, R181): their fields in order, what a read gives,
and what a write that has passed the value checks does. -/

namespace Sys2Proof.Machine

/-! ### Fields (R179, R181) -/

/-- The state of the part in which a field may be written (R178 step 2). -/
inductive When where
  /-- In every state. -/
  | always
  /-- In LOADING, STOPPED and TEST. -/
  | notOperating
  /-- In LOADING, STOPPED and TEST with the yaw PARKED or HELD (R107). -/
  | yawBinding
  /-- With the yaw PARKED or HELD (R111). -/
  | yawRest
  deriving DecidableEq, Repr

/-- The state of the part allows the write. -/
def When.allows (w : When) (s : State) : Bool :=
  match w with
  | .always => true
  | .notOperating => decide (s.sup.nacelle ≠ .operating)
  | .yawBinding => decide (s.sup.nacelle ≠ .operating) && yawAtRest s
  | .yawRest => yawAtRest s

/-- One field of a table: the form of its values, the authority its write needs, and when it is taken. -/
structure Field where
  form  : Form
  level : Authority
  when  : When
  deriving DecidableEq, Repr

/-- A field written at SERVICE authority. -/
def service (form : Form) (w : When) : Field :=
  { form, level := .service, when := w }

/-- A field written at OPERATOR authority in every state. -/
def operatorField (form : Form) : Field :=
  { form, level := .operator, when := .always }

/-- A field written at FACTORY authority in every state. -/
def factoryField (form : Form) : Field :=
  { form, level := .factory, when := .always }

/-- `n` read-only fields. -/
def readOnlyFields (n : Nat) : List Field :=
  List.replicate n { form := .readOnly, level := .factory, when := .always }

/-- OFF or ON. -/
def flagForm : Form := .enumerated 2

/-- A field that names a channel. -/
def channelForm : Form := .unsigned 0 127

/-- A signed 16-bit figure. -/
def halfForm : Form := .signed (-32768) 32767

/-- A count or span of 1..65,535. -/
def countForm : Form := .unsigned 1 65535

/-- A Q8 factor. -/
def factorForm : Form := .unsigned 0 256

/-- Slot map (R20). -/
def windowFields : List Field :=
  [service flagForm .notOperating, service (.unsigned 9 255) .notOperating,
    service (.fixedSet [1, 2, 4, 8, 16, 32, 64]) .notOperating, service (.enumerated 2) .notOperating,
    service channelForm .notOperating, service (.unsigned 1 64) .always]

/-- Channel table (R29, R30, R39). -/
def channelFields : List Field :=
  [service (.enumerated 2) .notOperating, service (.enumerated 2) .notOperating,
    service halfForm .notOperating, service halfForm .notOperating, service halfForm .always,
    service halfForm .always, service countForm .notOperating] ++ readOnlyFields 6

/-- One remap entry (R33). -/
def remapEntryFields : List Field :=
  [service (.signed (-32768) 65535) .always, service (.signed (-32768) 65535) .always,
    service (.enumerated 2) .always, service halfForm .always]

/-- Remap table (R33, R181). -/
def remapFields : List Field :=
  service (.unsigned 0 4) .always ::
    (remapEntryFields ++ remapEntryFields ++ remapEntryFields ++ remapEntryFields)

/-- The cause numbers 96..127. -/
def limitCauseNumbers : List Nat :=
  (List.range 32).map (· + 96)

/-- Limit table (R51, R52, R66). -/
def limitFields : List Field :=
  [service flagForm .notOperating, service channelForm .notOperating,
    service (.enumerated 2) .notOperating, operatorField halfForm, operatorField halfForm,
    operatorField (.unsigned 0 32767), operatorField (.unsigned 1 255), service flagForm .notOperating,
    service (.enumerated 7) .notOperating, service (.unsigned 0 5) .notOperating,
    operatorField (.unsigned 0 65535), service (.fixedSet (255 :: limitCauseNumbers)) .notOperating,
    service (.fixedSet limitCauseNumbers) .notOperating] ++ readOnlyFields 4

/-- The highest ordinate of a curve (R43). -/
def ordinateTop (curve : Nat) : Nat :=
  if curve ≤ 2 then 256 else if curve = 3 then 4 else 3

/-- Curve table (R42, R43): count, abscissas, ordinates. -/
def curveFields (curve : Nat) : List Field :=
  service (.unsigned 0 8) .always :: (List.replicate 8 (service halfForm .always) ++
    List.replicate 8 (service (.unsigned 0 (ordinateTop curve)) .always))

/-- Command plan (R182). -/
def planFields : List Field :=
  [service flagForm .notOperating, service (.enumerated 12) .notOperating,
    service (.unsigned 9 255) .notOperating]

/-- Section table (R69, R71, R87, R104). -/
def sectFields : List Field :=
  [service flagForm .notOperating, factoryField (.unsigned 0 4095), service (.unsigned 1 4095) .always,
    service channelForm .notOperating, service channelForm .notOperating,
    service channelForm .notOperating] ++ readOnlyFields 9

/-- Converter settings (R70, R89, R104). -/
def converterFields : List Field :=
  [factoryField (.unsigned 0 30000), service countForm .always, service (.unsigned 1 4095) .always,
    service factorForm .always] ++ readOnlyFields 11

/-- Yaw settings (R107). -/
def yawFields : List Field :=
  [service channelForm .yawBinding, service channelForm .yawBinding, service channelForm .yawBinding] ++
    [countForm, .unsigned 1 64, .unsigned 1 1800, countForm, .unsigned 0 1800, factorForm,
      .unsigned 1 1800, .enumerated 2, countForm, .unsigned 0 65535, countForm, .unsigned 0 65535,
      countForm, .unsigned 0 1800, .unsigned 1 1000000, .unsigned 0 65535, countForm, countForm,
      .unsigned 0 65535, countForm, .unsigned 0 4095, countForm,
      .unsigned 1 1000000].map (service · .always)

/-- Yaw runtime (R111, R181). -/
def yawRuntimeFields : List Field :=
  service (.signed (-2147483648) 2147483647) .yawRest :: readOnlyFields 8

/-- Cooling settings (R131). -/
def coolFields : List Field :=
  [service channelForm .notOperating, service channelForm .notOperating,
    service channelForm .notOperating] ++
    [factorForm, factorForm, factorForm, factorForm, factorForm, .unsigned 0 32767, countForm, countForm,
      halfForm, halfForm, halfForm, halfForm, halfForm, halfForm, halfForm, halfForm, countForm,
      countForm, halfForm, halfForm, .unsigned 0 4, halfForm, halfForm, halfForm,
      .unsigned 1 1000000, halfForm].map (service · .always) ++ readOnlyFields 10

/-- Pump table (R133, R148). Only OFF is taken for the state. -/
def pumpFields : List Field :=
  [service flagForm .notOperating, service channelForm .notOperating,
    service (.unsigned 0 4294967295) .always, service (.enumerated 1) .always] ++ readOnlyFields 5

/-- Cause table (R151, R158). -/
def causeFields : List Field :=
  readOnlyFields 2 ++ [operatorField flagForm, operatorField flagForm] ++ readOnlyFields 1

/-- The fields of a table in order; no field for a number that is no table (R181). Only the ordinates of
the curve table depend on the index. -/
def tableFields (table index : Nat) : List Field :=
  match table with
  | 1 => service (.unsigned 100 1000) .always :: readOnlyFields 7
  | 2 => windowFields
  | 3 => channelFields
  | 4 => remapFields
  | 5 => limitFields
  | 6 => curveFields index
  | 7 => planFields
  | 8 => sectFields
  | 9 => converterFields
  | 10 => yawFields
  | 11 => yawRuntimeFields
  | 12 => coolFields
  | 13 => pumpFields
  | 14 => causeFields
  | 15 => [operatorField .readOnly]
  | 16 => readOnlyFields 10
  | _ => []

/-- The number of entries of a table (R181). -/
def tableSize (table : Nat) : Nat :=
  match table with
  | 2 => 32
  | 3 | 4 | 14 => 128
  | 5 => 96
  | 6 => 5
  | 7 => 16
  | 8 => 6
  | 13 => 3
  | _ => 1

/-! ### Reading (R177, R179, R181) -/

def wordOfNat (n : Nat) : Word :=
  BitVec.ofNat 32 n

def wordOfChannel (ch : Fin 128) : Word :=
  wordOfNat ch.val

def ringWords (s : State) : List Word :=
  let r := s.ring
  [wordOfNat r.islandPeriod, wordOfNat (ringCode r.mode), wordOfNat (estimateNow s), r.extCount,
    wordOfNat r.lapses, wordOfNat r.returns, wordOfBool r.broken, wordOfNat r.rejoin]

def windowWords (w : Window) : List Word :=
  [wordOfBool w.enable, wordOfNat w.base, wordOfNat w.size, wordOfNat (widthCode w.width),
    wordOfChannel w.firstChannel, wordOfNat w.interval]

def channelWords (c : Channel) : List Word :=
  [wordOfBool c.configured, wordOfNat (rawKindCode c.rawKind), wordOf c.offset, wordOf c.gain,
    wordOf c.clampLow, wordOf c.clampHigh, wordOfNat c.staleRounds, wordOfNat (chanStateCode c.state),
    wordOf c.value, c.lastCode.zeroExtend 32, c.stamp, wordOfNat c.quiet, wordOfBool c.forced]

def remapWords (c : Channel) : List Word :=
  wordOfNat c.remapCount :: c.remap.toList.flatMap fun e =>
    [wordOf e.lo, wordOf e.hi, wordOfNat (remapActionCode e.action), wordOf e.substitute]

def limitWords (l : Limit) : List Word :=
  [wordOfBool l.enable, wordOfChannel l.channel, wordOfNat (directionCode l.direction), wordOf l.warn,
    wordOf l.trip, wordOfNat l.hysteresis, wordOfNat l.persistence, wordOfBool l.latch,
    wordOfNat (limitActionCode l.action), wordOfNat l.subject.val, wordOfNat l.actionValue,
    wordOfNat (causeCode l.warnCause), wordOfNat l.tripCause.val, wordOfNat (levelCode l.level),
    wordOfNat (targetCode l.target), wordOfNat l.counter, wordOfOption l.lastValue]

def curveWords (c : Curve) : List Word :=
  wordOfNat c.count :: (c.points.toList.map (fun p => wordOf p.x) ++
    c.points.toList.map (fun p => wordOfNat p.y))

def planWords (p : PlanEntry) : List Word :=
  [wordOfBool p.enable, wordOfNat p.object.val, wordOfNat p.slot]

def sectWords (s : State) (i : Fin 6) : List Word :=
  let x := s.sects[i]
  [wordOfBool x.present, wordOfNat x.rating, wordOfNat x.rampStep, wordOfChannel x.heatsink,
    wordOfChannel x.feedback, wordOfChannel x.status, wordOfNat (sectStateCode x.state),
    wordOfBool x.faultHold, wordOfNat x.thermal, wordOfBool x.blind, wordOfBool x.curveFallback,
    wordOfNat x.health, wordOfNat x.capability, wordOfNat s.power.shares[i], wordOfNat s.power.issued[i]]

def converterWords (p : Power) : List Word :=
  [wordOfNat p.rating, wordOfNat p.setpointHold, wordOfNat p.setpointDecay, wordOfNat p.sectionBlind,
    wordOfNat p.rEff, wordOfNat p.quiet, wordOfBool p.loss, wordOfNat p.ceiling,
    wordOfNat (termCode p.term), wordOfNat p.tReq, wordOfNat p.tCool, wordOfNat p.tYaw, wordOfNat p.tLim,
    wordOfNat p.capSum, wordOfNat p.issuedSum]

def yawWords (c : YawSettings) : List Word :=
  [c.vane.val, c.heading.val, c.brake.val, c.yawDecim, c.minValid, c.startMisalign, c.startTicks,
    c.stopMisalign, c.yawBlind, c.maxStep, releaseModeCode c.releaseMode, c.releaseRounds, c.releaseMin,
    c.releaseMax, c.stagger, c.stallWindow, c.stallMin, c.maxSlew, c.coastRounds, c.brakeRounds,
    c.unwindThreshold, c.unwindTarget, c.twistHard, c.idleBand, c.idleConfirm,
    c.unwindWaitMax].map wordOfNat

def yawRuntimeWords (y : Yaw) : List Word :=
  [wordOf y.twist, wordOfBool y.twistKnown, wordOfNat (yawCode y.mode), wordOfNat (phaseCode y.phase),
    wordOfNat (turnCode y.turn), wordOfNat y.factor, wordOfNat (judgementCode y.judgement),
    wordOfOption y.mean, wordOfOption (y.anchor.map fun a => (a : Int))]

/-- The pump order list: pump k of the list in octet k, 255 for an entry it does not hold (R181). -/
def orderWord (l : List (Fin 3)) : Word :=
  let entry : Nat → Nat := fun k => (l.map Fin.val).getD k 255
  wordOfNat (entry 0 + 256 * entry 1 + 65536 * entry 2)

def coolWords (c : CoolSettings) (r : Cool) : List Word :=
  [wordOfChannel c.tin, wordOfChannel c.tcab, wordOfChannel c.rh, wordOfNat c.blind] ++
    c.pumpFactor.toList.map wordOfNat ++
    [wordOfNat c.flowOk, wordOfNat c.pumpStart, wordOfNat c.pumpPersist] ++
    c.fanUp.toList.map wordOf ++ c.fanDown.toList.map wordOf ++
    [wordOfNat c.fanPersist, wordOfNat c.fanStep, wordOf c.guard, wordOf c.emergency,
      wordOfNat c.guardCap, wordOf c.heatOn, wordOf c.heatOff, wordOf c.dryMargin,
      wordOfNat c.dryConfirm, wordOf c.dryLost, wordOfNat r.required, orderWord r.order,
      wordOfNat r.thermal, wordOfNat r.wanted, wordOfNat r.commanded, wordOfBool r.heater,
      wordOfOption r.margin, wordOfBool r.dry, wordOfNat r.coolantFactor, wordOfNat r.factor]

def pumpWords (p : Pump) : List Word :=
  [wordOfBool p.present, wordOfChannel p.flowChannel, wordOfNat p.runMinutes,
    wordOfNat (pumpStateCode p.state), wordOfBool p.commanded, wordOfNat p.startCount,
    wordOfNat p.lowCount, wordOfNat p.minuteCount, wordOfNat (pumpFailureCode p.failure)]

/-- The five fields of a cause; an unassigned number reads UNASSIGNED and zeros (R177). -/
def causeWords (c : Fin 128) (x : Cause) : List Word :=
  match causeKind c with
  | .unassigned => [2, 0, 0, 0, 0]
  | .level => [0, wordOfBool x.pending, wordOfBool x.summaryEnable, wordOfBool x.reportEnable,
      wordOfBool x.injected]
  | .event => [1, wordOfBool x.pending, wordOfBool x.summaryEnable, wordOfBool x.reportEnable,
      wordOfBool x.injected]

/-- Field `k` of the forced set (R181). -/
def forcedWord (s : State) (k : Nat) : Word :=
  wordOfNat (bitsOf 32 fun n => s.channels[Fin.ofNat 128 (32 * k + n)].forced)

def lineWords (s : State) : List Word :=
  [wordOfBool s.lines.stopOut, wordOfBool s.lines.brakeHold, wordOfBool s.lines.estopIn,
    wordOfBool s.lines.serviceKey, wordOfNat (nacelleCode s.sup.nacelle),
    wordOfNat (reasonCode s.sup.reason), forcedWord s 0, forcedWord s 1, forcedWord s 2, forcedWord s 3]

/-- The coded values of entry `i` of a table, in field order (R179, R181). -/
def tableWords (s : State) (table i : Nat) : List Word :=
  match table with
  | 1 => ringWords s
  | 2 => windowWords s.windows[Fin.ofNat 32 i]
  | 3 => channelWords s.channels[Fin.ofNat 128 i]
  | 4 => remapWords s.channels[Fin.ofNat 128 i]
  | 5 => limitWords s.limits[Fin.ofNat 96 i]
  | 6 => curveWords s.curves[Fin.ofNat 5 i]
  | 7 => planWords s.plan[Fin.ofNat 16 i]
  | 8 => sectWords s (Fin.ofNat 6 i)
  | 9 => converterWords s.power
  | 10 => yawWords s.yawCfg
  | 11 => yawRuntimeWords s.yaw
  | 12 => coolWords s.coolCfg s.cool
  | 13 => pumpWords s.pumps[Fin.ofNat 3 i]
  | 14 => causeWords (Fin.ofNat 128 i) s.causes[Fin.ofNat 128 i]
  | 15 => [modeWord s.sup.mode]
  | 16 => lineWords s
  | _ => []

/-! ### Writing (R178 step 7 and the owning rules) -/

/-- A flag from its figure. -/
def flagOf (z : Int) : Bool :=
  decide (z ≠ 0)

/-- A channel number from its figure. -/
def channelOf (z : Int) : Fin 128 :=
  Fin.ofNat 128 z.toNat

/-- A window with one field written (R20). -/
def windowWith (w : Window) (f : Nat) (z : Int) : Window :=
  match f with
  | 0 => { w with enable := flagOf z }
  | 1 => { w with base := z.toNat }
  | 2 => { w with size := z.toNat }
  | 3 => { w with width := if z = 0 then .wide else .narrow }
  | 4 => { w with firstChannel := channelOf z }
  | _ => { w with interval := z.toNat }

/-- A write of the slot map (R23): field 5, the interval, is not structural. -/
def writeWindow (i : Fin 32) (f : Nat) (z : Int) (s : State) : Option State :=
  let w := windowWith s.windows[i] f z
  if w.enable && decide (f ≠ 5) && !windowConsistent s w then none else some (s.setWindow i w)

/-- A channel with one configuration field written (R29). -/
def channelWith (c : Channel) (f : Nat) (z : Int) : Channel :=
  match f with
  | 0 => { c with configured := flagOf z }
  | 1 => { c with rawKind := if z = 0 then .unsigned else .signed }
  | 2 => { c with offset := z }
  | 3 => { c with gain := z }
  | 4 => { c with clampLow := z }
  | 5 => { c with clampHigh := z }
  | _ => { c with staleRounds := z.toNat }

/-- A write of the channel table (R39). -/
def writeChannel (ch : Fin 128) (f : Nat) (z : Int) (s : State) : Option State :=
  let c := channelWith s.channels[ch] f z
  if (f = 4 ∨ f = 5) ∧ c.clampHigh < c.clampLow then none else some (channelWritten ch c s)

/-- A remap entry with one part written (R33). -/
def remapEntryWith (e : RemapEntry) (part : Nat) (z : Int) : RemapEntry :=
  match part with
  | 0 => { e with lo := z }
  | 1 => { e with hi := z }
  | 2 => { e with action := if z = 0 then .invalid else .substitute }
  | _ => { e with substitute := z }

/-- A channel with one field of its remap list written (R181): field 0 is the count. -/
def remapWith (c : Channel) (f : Nat) (z : Int) : Channel :=
  if f = 0 then { c with remapCount := z.toNat }
  else
    let k : Fin 4 := Fin.ofNat 4 ((f - 1) / 4)
    { c with remap := c.remap.set k (remapEntryWith c.remap[k] ((f - 1) % 4) z) }

/-- A write of the remap table (R39): the active entries keep lo at or below hi. -/
def writeRemap (ch : Fin 128) (f : Nat) (z : Int) (s : State) : Option State :=
  let c := remapWith s.channels[ch] f z
  if (activeRemap c).all fun e => decide (e.lo ≤ e.hi) then some (channelWritten ch c s) else none

def limitActionOf (n : Nat) : LimitAction :=
  match n with
  | 0 => .report
  | 1 => .derateSection
  | 2 => .isolateSection
  | 3 => .isolateAll
  | 4 => .ceiling
  | 5 => .yawHold
  | _ => .nacelleStop

/-- A limit with one configuration field written (R51). -/
def limitWith (l : Limit) (f : Nat) (z : Int) : Limit :=
  match f with
  | 0 => { l with enable := flagOf z }
  | 1 => { l with channel := channelOf z }
  | 2 => { l with direction := if z = 0 then .high else .low }
  | 3 => { l with warn := z }
  | 4 => { l with trip := z }
  | 5 => { l with hysteresis := z.toNat }
  | 6 => { l with persistence := z.toNat }
  | 7 => { l with latch := flagOf z }
  | 8 => { l with action := limitActionOf z.toNat }
  | 9 => { l with subject := Fin.ofNat 6 z.toNat }
  | 10 => { l with actionValue := z.toNat }
  | 11 => { l with warnCause := if z = 255 then none else some (channelOf z) }
  | _ => { l with tripCause := channelOf z }

/-- The structural fields of a limit (R66). -/
def limitStructural (f : Nat) : Bool :=
  decide (f ∈ [0, 1, 2, 7, 8, 9, 11, 12])

/-- warn, trip, hysteresis and persistence (R67). -/
def limitTuning (f : Nat) : Bool :=
  decide (f ∈ [3, 4, 5, 6])

/-- A write of the limit table (R66, R67). -/
def writeLimit (i : Fin 96) (f : Nat) (z : Int) (s : State) : Option State :=
  let l := limitWith s.limits[i] f z
  if l.enable && decide (f ∈ [0, 2, 3, 4]) && !limitOrdered l then none
  else some (limitWritten i s.limits[i] l (limitStructural f) (limitTuning f) s)

/-- Strictly ascending. -/
def ascending : List Int → Bool
  | [] => true
  | [_] => true
  | a :: b :: rest => decide (a < b) && ascending (b :: rest)

/-- A curve with one field written (R42, R181). -/
def curveWith (c : Curve) (f : Nat) (z : Int) : Curve :=
  if f = 0 then { c with count := z.toNat }
  else if f ≤ 8 then
    let k : Fin 8 := Fin.ofNat 8 (f - 1)
    { c with points := c.points.set k { c.points[k] with x := z } }
  else
    let k : Fin 8 := Fin.ofNat 8 (f - 9)
    { c with points := c.points.set k { c.points[k] with y := z.toNat } }

/-- The active abscissas of a curve are strictly ascending (R42). -/
def curveOrdered (c : Curve) : Bool :=
  ascending ((activePoints c).map Point.x)

/-- A write of the curve table (R47, R48): a write of an ordinate is never refused for order. -/
def writeCurve (i : Fin 5) (f : Nat) (z : Int) (s : State) : Option State :=
  let c := curveWith s.curves[i] f z
  if f ≤ 8 ∧ !curveOrdered c then none else some (s.setCurve i c)

/-- A command-plan entry with one field written (R182). -/
def planWith (p : PlanEntry) (f : Nat) (z : Int) : PlanEntry :=
  match f with
  | 0 => { p with enable := flagOf z }
  | 1 => { p with object := Fin.ofNat 12 z.toNat }
  | _ => { p with slot := z.toNat }

/-- The consistency checks of an enabled entry `p` at place `k` (R182). -/
def planConsistent (s : State) (k : Fin 16) (p : PlanEntry) : Bool :=
  (List.finRange 16).all (fun j => decide (j = k) || !s.plan[j].enable ||
      (decide (s.plan[j].slot ≠ p.slot) && decide (s.plan[j].object ≠ p.object))) &&
    !someIdx fun i : Fin 32 => s.windows[i].enable && s.windows[i].spans p.slot

/-- A write of the command plan (R182). -/
def writePlan (k : Fin 16) (f : Nat) (z : Int) (s : State) : Option State :=
  let p := planWith s.plan[k] f z
  if p.enable && !planConsistent s k p then none else some (s.setPlan k p)

/-- A write of a section record (R73, R87). -/
def writeSect (i : Fin 6) (f : Nat) (z : Int) (s : State) : State :=
  let x := s.sects[i]
  match f with
  | 0 => writePresent i (flagOf z) s
  | 1 => s.setSect i { x with rating := z.toNat }
  | 2 => s.setSect i { x with rampStep := z.toNat }
  | 3 => writeHeatsink i (channelOf z) s
  | 4 => s.setSect i { x with feedback := channelOf z }
  | _ => s.setSect i { x with status := channelOf z }

/-- A write of the converter settings (R70, R89). -/
def writeConverter (f : Nat) (z : Int) (s : State) : State :=
  match f with
  | 0 => { s with power := { s.power with rating := z.toNat } }
  | 1 => { s with power := { s.power with setpointHold := z.toNat } }
  | 2 => { s with power := { s.power with setpointDecay := z.toNat } }
  | _ => writeSectionBlind z.toNat s

/-- The yaw settings with one field written (R107). -/
def yawWith (c : YawSettings) (f : Nat) (z : Int) : YawSettings :=
  let n := z.toNat
  match f with
  | 0 => { c with vane := channelOf z }
  | 1 => { c with heading := channelOf z }
  | 2 => { c with brake := channelOf z }
  | 3 => { c with yawDecim := n }
  | 4 => { c with minValid := n }
  | 5 => { c with startMisalign := n }
  | 6 => { c with startTicks := n }
  | 7 => { c with stopMisalign := n }
  | 8 => { c with yawBlind := n }
  | 9 => { c with maxStep := n }
  | 10 => { c with releaseMode := if n = 0 then .fixed else .feedback }
  | 11 => { c with releaseRounds := n }
  | 12 => { c with releaseMin := n }
  | 13 => { c with releaseMax := n }
  | 14 => { c with stagger := n }
  | 15 => { c with stallWindow := n }
  | 16 => { c with stallMin := n }
  | 17 => { c with maxSlew := n }
  | 18 => { c with coastRounds := n }
  | 19 => { c with brakeRounds := n }
  | 20 => { c with unwindThreshold := n }
  | 21 => { c with unwindTarget := n }
  | 22 => { c with twistHard := n }
  | 23 => { c with idleBand := n }
  | 24 => { c with idleConfirm := n }
  | _ => { c with unwindWaitMax := n }

/-- A write of the yaw settings (R107). -/
def writeYaw (f : Nat) (z : Int) (s : State) : Option State :=
  let c := yawWith s.yawCfg f z
  if yawSettingsConsistent c then some (writeYawSettings c (decide (f = 1)) s) else none

/-- The cooling settings with one field written (R131). -/
def coolWith (c : CoolSettings) (f : Nat) (z : Int) : CoolSettings :=
  let n := z.toNat
  match f with
  | 0 => { c with tin := channelOf z }
  | 1 => { c with tcab := channelOf z }
  | 2 => { c with rh := channelOf z }
  | 3 => { c with blind := n }
  | 4 => { c with pumpFactor := c.pumpFactor.set 0 n }
  | 5 => { c with pumpFactor := c.pumpFactor.set 1 n }
  | 6 => { c with pumpFactor := c.pumpFactor.set 2 n }
  | 7 => { c with pumpFactor := c.pumpFactor.set 3 n }
  | 8 => { c with flowOk := n }
  | 9 => { c with pumpStart := n }
  | 10 => { c with pumpPersist := n }
  | 11 => { c with fanUp := c.fanUp.set 0 z }
  | 12 => { c with fanUp := c.fanUp.set 1 z }
  | 13 => { c with fanUp := c.fanUp.set 2 z }
  | 14 => { c with fanUp := c.fanUp.set 3 z }
  | 15 => { c with fanDown := c.fanDown.set 0 z }
  | 16 => { c with fanDown := c.fanDown.set 1 z }
  | 17 => { c with fanDown := c.fanDown.set 2 z }
  | 18 => { c with fanDown := c.fanDown.set 3 z }
  | 19 => { c with fanPersist := n }
  | 20 => { c with fanStep := n }
  | 21 => { c with guard := z }
  | 22 => { c with emergency := z }
  | 23 => { c with guardCap := n }
  | 24 => { c with heatOn := z }
  | 25 => { c with heatOff := z }
  | 26 => { c with dryMargin := z }
  | 27 => { c with dryConfirm := n }
  | _ => { c with dryLost := z }

/-- A write of the cooling settings (R131). -/
def writeCool (f : Nat) (z : Int) (s : State) : Option State :=
  let c := coolWith s.coolCfg f z
  if coolSettingsConsistent c then some (coolSettingsWritten f { s with coolCfg := c }) else none

/-- A write of a pump record (R148). -/
def writePump (k : Fin 3) (f : Nat) (z : Int) (s : State) : State :=
  let p := s.pumps[k]
  match f with
  | 0 => writePumpPresent k (flagOf z) s
  | 1 => s.setPump k { p with flowChannel := channelOf z }
  | 2 => s.setPump k { p with runMinutes := z.toNat }
  | _ => clearFailedPump k s

/-- A write of a cause's enables (R158). -/
def writeCause (c : Fin 128) (f : Nat) (z : Int) (s : State) : State :=
  let x := s.causes[c]
  if f = 2 then s.setCause c { x with summaryEnable := flagOf z }
  else s.setCause c { x with reportEnable := flagOf z }

/-- The state after a write of the figure `z` that has passed steps 1 to 6 of R178, or `none` when it would
break the structural consistency of the table (step 7). -/
def applyWrite (table i f : Nat) (z : Int) (s : State) : Option State :=
  match table with
  | 1 => some { s with ring := { s.ring with islandPeriod := z.toNat } }
  | 2 => writeWindow (Fin.ofNat 32 i) f z s
  | 3 => writeChannel (Fin.ofNat 128 i) f z s
  | 4 => writeRemap (Fin.ofNat 128 i) f z s
  | 5 => writeLimit (Fin.ofNat 96 i) f z s
  | 6 => writeCurve (Fin.ofNat 5 i) f z s
  | 7 => writePlan (Fin.ofNat 16 i) f z s
  | 8 => some (writeSect (Fin.ofNat 6 i) f z s)
  | 9 => some (writeConverter f z s)
  | 10 => writeYaw f z s
  | 11 => some (writeTwist z s)
  | 12 => writeCool f z s
  | 13 => some (writePump (Fin.ofNat 3 i) f z s)
  | 14 => some (writeCause (Fin.ofNat 128 i) f z s)
  | _ => some s

end Sys2Proof.Machine
end

