-- ==== Sys2Proof/Machine/Management.lean ====
section
/-! DEFINITION. The management unit (11): requests, their checks and replies (R174 to R185). -/

namespace Sys2Proof.Machine

/-! ### Replies (R174, R175) -/

/-- The reply in preparation becomes `r` (R174). -/
def prepare (r : Reply) (s : State) : State :=
  { s with reply := some r }

/-- The reply that echoes a request, with its status and value (R175). -/
def replyTo (table : Octet) (r : ReqArgs) (status : Status) (value : Word) : Reply :=
  { status, table, index := r.index, tag := r.tag, part := false, value, field := r.field }

/-- The reply of a format failure: tag, table and index echoed, field 0 and value 0 (R174). -/
def formatReply (table : Octet) (index : Half) (tag : Octet) : Reply :=
  { status := .refusedFormat, table, index, tag, part := false, value := 0, field := 0 }

/-- A refusal carries the value the request carried unless its rule says otherwise (R175). -/
def refuse (table : Octet) (r : ReqArgs) (status : Status) (s : State) : State :=
  prepare (replyTo table r status r.value) s

/-- A request is checked for its claimed authority (R174) and handled at its effective authority
(R176). -/
def withAuthority (table : Octet) (r : ReqArgs) (handle : Authority → State → State) (s : State) : State :=
  match claimedAuthority r.claimed with
  | none => prepare (formatReply table r.index r.tag) s
  | some a => handle (effectiveAuthority s.lines.serviceKey a) s

/-! ### READ (R177) -/

/-- The first check a READ fails, or the value it gives (R177). -/
def readOutcome (table : Octet) (r : ReqArgs) (s : State) : Status × Word :=
  let t := table.toNat
  let i := r.index.toNat
  let f := r.field.toNat
  if (tableFields t i).length ≤ f then (.refusedUnknown, r.value)
  else if tableSize t ≤ i then (.refusedIndex, r.value)
  else (.ok, (tableWords s t i).getD f 0)

/-- A READ request (R177): it changes nothing but the reply. -/
def readRequest (table : Octet) (r : ReqArgs) : State → State :=
  withAuthority table r fun _ s =>
    let o := readOutcome table r s
    prepare (replyTo table r o.1 o.2) s

/-! ### WRITE (R178, R180) -/

/-- A write of the mode record (R180). -/
def writeMode (a : Authority) (r : ReqArgs) (s : State) : State :=
  let m := modeWritten a r.value s.sup.mode
  prepare
    { replyTo 15 r (if modeAdjusted a r.value then .adjusted else .ok) (modeWord m) with
      part := modePartial a r.value s.sup.mode }
    { s with sup := { s.sup with mode := m } }

/-- The index names an entry of the table, and an assigned cause in the cause table (R178 step 4). -/
def indexTaken (t i : Nat) : Bool :=
  decide (i < tableSize t) && (decide (t ≠ 14) || causeKind (Fin.ofNat 128 i) ≠ .unassigned)

/-- The checks of R178 in order, for the field `x` of a table other than the mode record, and the write. -/
def writeChecked (table : Octet) (x : Field) (a : Authority) (r : ReqArgs) (s : State) : State :=
  let t := table.toNat
  let i := r.index.toNat
  if !x.when.allows s then refuse table r .refusedState s
  else if x.form = .readOnly ∨ !a.reaches x.level then refuse table r .refusedAuthority s
  else if !indexTaken t i then refuse table r .refusedIndex s
  else match x.form.take r.value with
    | none => refuse table r .refusedValue s
    | some (z, clamped) =>
      match applyWrite t i r.field.toNat z s with
      | none => refuse table r .refusedConflict s
      | some u => prepare (replyTo table r (if clamped then .adjusted else .ok) (wordOf z)) u

/-- A WRITE request (R178); table 15 is the mode record (R180). -/
def writeRequest (table : Octet) (r : ReqArgs) : State → State :=
  withAuthority table r fun a s =>
    match (tableFields table.toNat r.index.toNat)[r.field.toNat]? with
    | none => refuse table r .refusedUnknown s
    | some x =>
      if table = 15 then
        if r.index = 0 then writeMode a r s else refuse table r .refusedIndex s
      else writeChecked table x a r s

/-! ### CLEAR (R183) -/

/-- A CLEAR request (R183): the reply carries the causes of the group that are pending after it. -/
def clearRequest (table : Octet) (r : ReqArgs) : State → State :=
  withAuthority table r fun _ s =>
    if table ≠ 14 then refuse table r .refusedUnknown s
    else if 8 ≤ r.index.toNat then refuse table r .refusedIndex s
    else
      let g : Fin 8 := Fin.ofNat 8 r.index.toNat
      let t := clearCauses (namedCauses g r.value) s
      prepare (replyTo table r .ok (wordOfNat (pendingSet t g))) t

/-! ### STATUS (R185) -/

/-- The reply of a STATUS request (R185). -/
def statusReply (table : Octet) (r : ReqArgs) (s : State) : Reply where
  status := .ok
  table := table
  index := BitVec.ofNat 8 (nacelleCode s.sup.nacelle) ++ BitVec.ofNat 8 (ringCode s.ring.mode)
  tag := r.tag
  part := false
  value := payloadOf (BitVec.ofNat 8 (causeCode (topCause s))) (BitVec.ofNat 8 (activeGroups s))
    (BitVec.ofNat 8 s.reports.queue.length) (BitVec.ofNat 8 (onlineCount s))
  field := BitVec.ofNat 8 (yawCode s.yaw.mode)

/-- A STATUS request (R185). -/
def statusRequest (table : Octet) (r : ReqArgs) : State → State :=
  withAuthority table r fun _ s => prepare (statusReply table r s) s

/-! ### COMMAND (R184) -/

/-- What a command brings to the common handling of R184. -/
structure Command where
  /-- The authority it needs. -/
  level   : Authority
  /-- Step 3: the index lies in the table's range. -/
  indexOk : Bool
  /-- Step 4: a direction or a cause number is one that exists. -/
  valueOk : Bool
  /-- Step 5: the second argument as used, and whether it was clamped. -/
  used    : Word
  clamped : Bool
  /-- Step 6: the number of the check that fails. -/
  refusal : State → Option Nat
  /-- The arrival at the owning block. -/
  effect  : State → State

/-- A command without arguments. -/
def plainCommand (level : Authority) (refusal : State → Option Nat) (effect : State → State) : Command where
  level := level
  indexOk := true
  valueOk := true
  used := 0
  clamped := false
  refusal := refusal
  effect := effect

/-- The handling of a command, in the order of R184. -/
def commandRequest (no : Octet) (c : Command) (r : ReqArgs) : State → State :=
  withAuthority no r fun a s =>
    if !a.reaches c.level then refuse no r .refusedAuthority s
    else if !c.indexOk then refuse no r .refusedIndex s
    else if !c.valueOk then refuse no r .refusedValue s
    else match c.refusal s with
      | some n => prepare (replyTo no r .refusedState (wordOfNat n)) s
      | none => prepare (replyTo no r (if c.clamped then .adjusted else .ok) c.used) (c.effect s)

/-- START (R166). -/
def startCommand : Command :=
  plainCommand .operator startRefusal startNacelle

/-- STOP (R167). -/
def stopCommand : Command :=
  plainCommand .operator (fun _ => none) (stopDemand .management)

/-- RESTART (R171). -/
def restartCommand : Command :=
  plainCommand .service (fun _ => none) warmReset

/-- TEST_ENTER (R169). -/
def testEnterCommand : Command :=
  plainCommand .service (fun s => firstFailing (testEnterChecks s)) enterTest

/-- TEST_EXIT (R169). -/
def testExitCommand : Command :=
  plainCommand .service (fun s => firstFailing [inTest s]) exitTest

/-- A section number from an index (R184). -/
def sectOf (index : Half) : Fin 6 :=
  Fin.ofNat 6 index.toNat

/-- SECTION_RELEASE (R74). -/
def sectionReleaseCommand (r : ReqArgs) : Command :=
  { plainCommand .operator (fun s => firstFailing (releaseChecks (sectOf r.index) s))
      (releaseSect (sectOf r.index)) with indexOk := decide (r.index.toNat < 6) }

/-- SECTION_HOLD (R75). -/
def sectionHoldCommand (r : ReqArgs) : Command :=
  { plainCommand .operator (fun s => firstFailing (holdChecks (sectOf r.index) s))
      (holdSect (sectOf r.index)) with indexOk := decide (r.index.toNat < 6) }

/-- YAW_RESUME (R124). -/
def yawResumeCommand : Command :=
  plainCommand .operator (fun s => firstFailing (resumeChecks s)) enterParked

/-- YAW_UNWIND (R125). -/
def yawUnwindCommand : Command :=
  plainCommand .operator (fun s => firstFailing (unwindChecks s)) enterUnwindWait

/-- The direction of YAW_JOG: 0 CW, 1 CCW (R184). -/
def jogTurn (index : Half) : Turn :=
  if index = 1 then .ccw else .cw

/-- The rounds of YAW_JOG as used: read as unsigned (log 20) and clamped into 1..40,000 (R128). -/
def jogRounds (value : Word) : Nat :=
  max 1 (min value.toNat 40000)

/-- YAW_JOG (R128). -/
def yawJogCommand (r : ReqArgs) : Command where
  level := .service
  indexOk := true
  valueOk := r.index = 0 || r.index = 1
  used := wordOfNat (jogRounds r.value)
  clamped := decide (jogRounds r.value ≠ r.value.toNat)
  refusal := fun s => firstFailing (jogChecks (jogTurn r.index) s)
  effect := beginJog (jogTurn r.index) (jogRounds r.value)

/-- A channel or cause number from an index (R184). -/
def entryOf (index : Half) : Fin 128 :=
  Fin.ofNat 128 index.toNat

/-- The value of INJECT_VALUE as used: clamped into −32,768..32,767 (R170). -/
def injectedFigure (value : Word) : Int :=
  clampInt (-32768) 32767 (signedOf value)

/-- INJECT_VALUE (R170). -/
def injectValueCommand (r : ReqArgs) : Command where
  level := .service
  indexOk := decide (r.index.toNat < 128)
  valueOk := true
  used := wordOf (injectedFigure r.value)
  clamped := decide (injectedFigure r.value ≠ signedOf r.value)
  refusal := fun s => firstFailing [inTest s, s.channels[entryOf r.index].configured]
  effect := setForce (entryOf r.index) (injectedFigure r.value)

/-- INJECT_CAUSE (R162). -/
def injectCauseCommand (r : ReqArgs) : Command :=
  { plainCommand .service (fun s => firstFailing [inTest s]) (injectCause (entryOf r.index)) with
    indexOk := decide (r.index.toNat < 128)
    valueOk := decide (causeKind (entryOf r.index) ≠ .unassigned) }

/-- RELEASE_FORCE (R170). -/
def releaseForceCommand (r : ReqArgs) : Command :=
  { plainCommand .service (fun s => firstFailing [inTest s, s.channels[entryOf r.index].forced])
      (releaseForce (entryOf r.index)) with indexOk := decide (r.index.toNat < 128) }

/-- The command of a number (R184). -/
def commandOf (no : Octet) (r : ReqArgs) : Option Command :=
  match no.toNat with
  | 1 => some startCommand
  | 2 => some stopCommand
  | 3 => some restartCommand
  | 4 => some testEnterCommand
  | 5 => some testExitCommand
  | 6 => some (sectionReleaseCommand r)
  | 7 => some (sectionHoldCommand r)
  | 8 => some yawResumeCommand
  | 9 => some yawUnwindCommand
  | 10 => some (yawJogCommand r)
  | 11 => some (injectValueCommand r)
  | 12 => some (injectCauseCommand r)
  | 13 => some (releaseForceCommand r)
  | _ => none

/-! ### Requests from their cells (R8, R174) -/

/-- The table or command number of an MREQ_A cell. -/
def requestTable (a : Cell) : Octet :=
  a.payload.extractLsb' 24 8

/-- The parts of a request from its two cells (R174). -/
def requestArgs (a b : Cell) : ReqArgs where
  claimed := a.ext
  tag := a.payload.extractLsb' 0 8
  index := a.payload.extractLsb' 8 16
  field := b.ext
  value := b.payload

/-- A format failure carrying the MREQ_A cell (R8, R174). -/
def formatFailed (a : Cell) : State → State :=
  prepare (formatReply (requestTable a) (a.payload.extractLsb' 8 16) (a.payload.extractLsb' 0 8))

/-- A request arrival with both cells, by its operation (R174). A command number outside 1..13 is refused
REFUSED_UNKNOWN (R184). -/
def requestArrival (a b : Cell) (s : State) : State :=
  let t := requestTable a
  let r := requestArgs a b
  match a.attr.toNat with
  | 1 => readRequest t r s
  | 2 => writeRequest t r s
  | 3 => clearRequest t r s
  | 4 =>
    match commandOf t r with
    | some c => commandRequest t c r s
    | none => withAuthority t r (fun _ u => refuse t r .refusedUnknown u) s
  | 5 => statusRequest t r s
  | _ => formatFailed a s

end Sys2Proof.Machine
end

