-- ==== Sys2Proof/Machine/RingUnit.lean ====
section
/-! DEFINITION. The ring interface (01): the tower port, the downstream leg, the upstream leg, the ring
states and the cold reset. -/

namespace Sys2Proof.Machine

/-! ### Sending -/

/-- A cell leaves on node-out (log 13). -/
def sendNode (c : Cell) (s : State) : State :=
  { s with ring := { s.ring with nodeOut := s.ring.nodeOut ++ [c] } }

/-- A cell leaves on the tower port's transmit side (log 13). -/
def sendTower (c : Cell) (s : State) : State :=
  { s with ring := { s.ring with towerOut := s.ring.towerOut ++ [c] } }

/-! ### Command cells (R9, R85, R117, R147) -/

/-- The enabled command-plan entry that names a slot (R9). -/
def planFor (s : State) (slot : Nat) : Option (Fin 16) :=
  lowestIdx fun k : Fin 16 => s.plan[k].enable && decide (s.plan[k].slot = slot)

/-- Value and flags of a command object as they stand: SECTION(0..5), YAW, PUMP(0..2), FAN, HEATER
(R9). -/
def objectCommand (s : State) (object : Fin 12) : Nat × Nat :=
  if object.val < 6 then sectCommand s (Fin.ofNat 6 object.val)
  else if object.val = 6 then yawCommand s.yaw
  else if object.val < 10 then (pumpCommand s (Fin.ofNat 3 (object.val - 7)), 0)
  else if object.val = 10 then (s.cool.commanded, 0)
  else (if s.cool.heater then 1 else 0, 0)

/-- The COMMAND cell of a command-plan entry (R9). -/
def commandCell (s : State) (k : Fin 16) (slot : Nat) : Cell :=
  let o := objectCommand s s.plan[k].object
  writeCell Kind.command 0 slot (BitVec.ofNat 32 o.1) (BitVec.ofNat 8 o.2)

/-! ### Opening rounds (R3, R6, R16) -/

/-- A round opens: its head leaves on node-out, and number, originator and last slot are recorded (R3). -/
def openRound (o : Originator) (head : Cell) (number : Half) (last now : Nat) (s : State) : State :=
  let t := sendNode head s
  { t with ring := { t.ring with
      lastHeadOut := some number
      roundOut := some { number, originator := o, last, openedAt := now, headReturned := false, nextPos := 0 } } }

/-- The number of the next island round (R16). -/
def islandNumber (s : State) : Half :=
  match s.ring.lastHeadOut with
  | some n => n + 1
  | none => 0

/-- The last slot of an island round (R16). -/
def islandLast (s : State) : Nat :=
  match s.ring.lastHead with
  | some h => h.last
  | none => 255

/-- The cell of slot `k` of an island round: a command-plan slot carries its COMMAND cell, every other slot
IDLE (R16). -/
def islandCell (s : State) (k : Nat) : Cell :=
  match if 9 ≤ k then planFor s k else none with
  | some e => commandCell s e k
  | none => idleCell k

/-- An island round opens at `now`, with all its cells (R16; log 18), and the next one falls due one island
period later (log 17). -/
def openIsland (now : Nat) (s : State) : State :=
  let n := islandNumber s
  let last := islandLast s
  let t := openRound .nacelle (headCell .nacelle n last) n last now s
  let cells := (List.range last).map fun k => islandCell s (k + 1)
  { t with ring := { t.ring with
      nodeOut := t.ring.nodeOut ++ cells, islandDue := now + s.ring.islandPeriod } }

/-! ### The tower port (R1, R4 to R8, R17) -/

/-- The estimate after an accepted head at `now` (R5). -/
def estimateAfter (s : State) (now : Nat) : Option Nat :=
  match s.ring.lastHead with
  | some h => some (max 100 (min (now - h.time) 2000))
  | none => s.ring.estimate

/-- An accepted head is recorded, and the port counts its round (R1, R4, R5). The tower-loss timer runs
from it (R15). -/
def headRecorded (c : Cell) (forwarded : Bool) (now : Nat) (s : State) : State :=
  { s with ring := { s.ring with
      estimate := estimateAfter s now
      lastHead := some { time := now, number := roundNumber c, last := lastSlot c }
      port := some { nextPos := 1, last := lastSlot c, forwarded, startedAt := now }
      heldRequest := none
      towerTimer := now } }

/-- The new head's number does not follow the previous head's (R4). -/
def outOfSequence (s : State) (c : Cell) : Bool :=
  match s.ring.lastHead with
  | some h => roundNumber c != h.number + 1
  | none => false

/-- An accepted head in FOLLOWING (R4, R6): a round still out lapses first, ROUND_SEQUENCE rises on a gap in
the numbers, and the head is forwarded and opens its round. -/
def followHead (c : Cell) (now : Nat) (s : State) : State :=
  let t := lapseRound s
  let u := if outOfSequence t c then
      raise CauseNo.roundSequence .none .none (some (roundNumber c)) t else t
  openRound .tower c (roundNumber c) (lastSlot c) now (headRecorded c true now u)

/-- The rejoin counter after an accepted head in ISLAND or REJOINING (R17). The gap is held against the
estimate as it stood before the head. -/
def rejoinAfter (s : State) (now : Nat) : Nat :=
  match s.ring.mode, s.ring.lastHead with
  | .rejoining, some h => if now - h.time ≤ 2 * estimateNow s then s.ring.rejoin + 1 else 1
  | _, _ => 1

/-- An accepted head in ISLAND or REJOINING (R4, R17): its round is discarded. -/
def rejoinHead (c : Cell) (now : Nat) (s : State) : State :=
  let n := rejoinAfter s now
  let t := headRecorded c false now s
  { t with ring := { t.ring with mode := .rejoining, rejoin := n } }

/-- A rejected head (R4). -/
def rejectHead (c : Cell) (s : State) : State :=
  if cellPasses c 0 then raise CauseNo.slotClash .none .none (portFigure 0 0) s
  else raise CauseNo.cellCheck .none .none (portFigure 0 0) s

/-- A cell at position 0 on the tower port (R4). -/
def headArrival (c : Cell) (now : Nat) (s : State) : State :=
  if cellPasses c 0 && isTowerHead c then
    match s.ring.mode with
    | .following => followHead c now s
    | .island | .rejoining => rejoinHead c now s
  else rejectHead c s

/-- The port awaits a head again once 2 × the estimate has passed since the accepted head (R1). -/
def awaitDue (now : Nat) (s : State) : State :=
  match s.ring.port with
  | some p =>
    if p.startedAt + 2 * estimateNow s ≤ now then { s with ring := { s.ring with port := none } } else s
  | none => s

/-- The position count after a cell at position `pos` of the round counted by `p` (R1). -/
def portAdvanced (p : TowerCount) (s : State) : State :=
  { s with ring := { s.ring with
      port := if p.nextPos < p.last then some { p with nextPos := p.nextPos + 1 } else none } }

/-- SLOT_CLASH for a wrong kind in a slot of the tower port (R7, R8). -/
def towerClash (pos : Nat) (s : State) : State :=
  raise CauseNo.slotClash .none .none (portFigure 0 pos) s

/-- CELL_CHECK for a cell that fails its check (R1). -/
def checkCell (port : Nat) (c : Cell) (pos : Nat) (s : State) : State :=
  if cellPasses c pos then s else raise CauseNo.cellCheck .none .none (portFigure port pos) s

/-- Slot 1 of a FOLLOWING round (R7). -/
def setpointSlot (c : Cell) (s : State) : State :=
  let t :=
    if !cellPasses c 1 then s
    else if c.kind = Kind.setpoint then setpointTaken c.payload.toNat s
    else if c.kind = Kind.idle then s
    else towerClash 1 s
  sendNode (idleCell 1) t

/-- Slot 2 of a FOLLOWING round: an MREQ_A is held for slot 3 (R8). -/
def requestSlotA (c : Cell) (s : State) : State :=
  let t :=
    if !cellPasses c 2 then s
    else if c.kind = Kind.mreqA then { s with ring := { s.ring with heldRequest := some c } }
    else if c.kind = Kind.idle then s
    else towerClash 2 s
  sendNode (idleCell 2) t

/-- Slot 3 of a FOLLOWING round: the outcome of the request is handed over (R8). -/
def requestSlotB (c : Cell) (s : State) : State :=
  let t := match s.ring.heldRequest with
    | some a =>
      let u := { s with ring := { s.ring with heldRequest := none } }
      if cellPasses c 3 && c.kind = Kind.mreqB then requestArrival a c u else formatFailed a u
    | none => s
  sendNode (idleCell 3) t

/-- A node slot of the downstream leg: the COMMAND cell of its command-plan entry, or the cell as received
(R6, R9). -/
def nodeSlotDown (c : Cell) (pos : Nat) (s : State) : State :=
  match planFor s pos with
  | some e => sendNode (commandCell s e pos) s
  | none => sendNode c s

/-- A cell at position `pos` of a forwarded round (R6). -/
def forwardSlot (c : Cell) (pos : Nat) (s : State) : State :=
  match pos with
  | 1 => setpointSlot c s
  | 2 => requestSlotA c s
  | 3 => requestSlotB c s
  | 4 | 5 | 6 | 7 | 8 => sendNode c s
  | _ => nodeSlotDown c pos s

/-- A cell arrives on the tower port (R1, R6). Positions count in discarded rounds too, and their cells are
checked (log 14). -/
def towerPortCell (c : Cell) (now : Nat) (s : State) : State :=
  let t := awaitDue now s
  match t.ring.port with
  | none => headArrival c now t
  | some p =>
    let u := checkCell 0 c p.nextPos (portAdvanced p t)
    if p.forwarded && u.ring.mode = .following then forwardSlot c p.nextPos u else u

/-! ### Node-in (R10 to R12) -/

/-- A cell on node-in is the returning head of the round out (R10). -/
def isReturningHead (o : RoundOut) (c : Cell) : Bool :=
  cellPasses c 0 && c.kind = Kind.head && c.attr = originatorCode o.originator && roundNumber c == o.number

/-- The returning head is forwarded, and positions count from it (R10). -/
def headReturned (o : RoundOut) (c : Cell) (s : State) : State :=
  sendTower c { s with ring := { s.ring with
    roundOut := some { o with headReturned := true, nextPos := 1 } } }

/-- The STATUS cell (R11). -/
def statusCell (s : State) : Cell :=
  writeCell Kind.status (BitVec.ofNat 4 (ringCode s.ring.mode)) 8
    (BitVec.ofNat 16 s.power.ceiling ++ BitVec.ofNat 8 (nacelleCode s.sup.nacelle) ++
      BitVec.ofNat 8 (causeCode (topCause s)))
    (BitVec.ofNat 8 (statusFlags s))

/-- MREP_A (R175). -/
def replyCellA (r : Reply) : Cell :=
  writeCell Kind.mrepA (BitVec.ofNat 4 (statusCode r.status)) 4 (r.table ++ r.index ++ r.tag)
    (if r.part then 1 else 0)

/-- MREP_B (R175). -/
def replyCellB (r : Reply) : Cell :=
  writeCell Kind.mrepB 0 5 r.value r.field

/-- REPORT_A (R153). -/
def reportCellA (r : FaultRecord) : Cell :=
  writeCell Kind.reportA (BitVec.ofNat 4 (recActionCode r.action)) 6 r.stamp (BitVec.ofNat 8 r.cause.val)

/-- REPORT_B (R153). -/
def reportCellB (r : FaultRecord) : Cell :=
  let k := subjectCode r.subject
  let v : Half := r.value.getD 0
  writeCell Kind.reportB (if r.value.isSome then 1 else 0) 7 (k.1 ++ k.2 ++ v) (BitVec.ofNat 8 r.cause.val)

/-- Slot 4 (R11). -/
def replySlotA (s : State) : State :=
  sendTower ((s.reply.map replyCellA).getD (idleCell 4)) s

/-- Slot 5 (R11): the reply has been written. -/
def replySlotB (s : State) : State :=
  sendTower ((s.reply.map replyCellB).getD (idleCell 5)) { s with reply := none }

/-- Slot 6 (R11, R160): the choice made here governs slot 7. -/
def reportSlotA (s : State) : State :=
  if drains s then
    sendTower ((s.reports.queue.head?.map reportCellA).getD (idleCell 6))
      { s with reports := { s.reports with delivering := true } }
  else sendTower (idleCell 6) s

/-- Slot 7 (R11, R160): the record in delivery leaves the queue. -/
def reportSlotB (s : State) : State :=
  if s.reports.delivering then
    sendTower ((s.reports.queue.head?.map reportCellB).getD (idleCell 7)) (recordLeaves s)
  else sendTower (idleCell 7) s

/-- One of slots 4 to 8 of the upstream leg is written (R11). -/
def reservedSlot (pos : Nat) (s : State) : State :=
  match pos with
  | 4 => replySlotA s
  | 5 => replySlotB s
  | 6 => reportSlotA s
  | 7 => reportSlotB s
  | _ => sendTower (statusCell s) s

/-- A node slot of the upstream leg (R10): a node that has written into a command-plan slot clashes, any
other slot is handed to the channel unit, and the cell is forwarded as received. -/
def nodeSlotUp (c : Cell) (pos : Nat) (s : State) : State :=
  let t :=
    match planFor s pos with
    | some _ =>
      if cellPasses c pos && decide (c.kind ≠ Kind.command) then
        raise CauseNo.slotClash .none .none (portFigure 1 pos) s
      else s
    | none => handOver (slotContent c pos) pos s
  sendTower c t

/-- A cell at position `pos` of the upstream leg (R10, R11). -/
def upstreamSlot (c : Cell) (pos : Nat) (s : State) : State :=
  if pos ≤ 3 then sendTower c s
  else if pos ≤ 8 then reservedSlot pos s
  else nodeSlotUp c pos s

/-- A cell after the returned head of the round `o` (R10, R12): the tail closes the round. -/
def upstreamCell (o : RoundOut) (c : Cell) (s : State) : State :=
  let t := upstreamSlot c o.nextPos (checkCell 1 c o.nextPos
    { s with ring := { s.ring with roundOut := some { o with nextPos := o.nextPos + 1 } } })
  if o.last ≤ o.nextPos then closeByReturn t else t

/-- A cell arrives on node-in (R10). With no round out, and until the head of the round out has returned, it
is discarded and raises nothing (log 25). -/
def nodeInCell (c : Cell) (s : State) : State :=
  match s.ring.roundOut with
  | none => s
  | some o =>
    if o.headReturned then upstreamCell o c s
    else if isReturningHead o c then headReturned o c s
    else s

/-! ### Ring timers and states (R13, R15 to R17) -/

/-- The lapse timeout of the round out has passed (R13). -/
def lapseTimeout (now : Nat) (s : State) : State :=
  match s.ring.roundOut with
  | some o => if o.openedAt + 2 * estimateNow s ≤ now then lapseRound s else s
  | none => s

/-- The tower-loss timer has passed 8 × the estimate in FOLLOWING (R15): a round out lapses first, the ring is
ISLAND, TOWER_LOSS rises with the estimate, and the first island round opens. -/
def towerLoss (now : Nat) (s : State) : State :=
  if s.ring.mode = .following ∧ s.ring.towerTimer + 8 * estimateNow s ≤ now then
    let t := lapseRound s
    openIsland now (raise CauseNo.towerLoss .none .none (some (unsignedFigure (estimateNow t)))
      { t with ring := { t.ring with mode := .island } })
  else s

/-- The next island round falls due (R16): a round still out lapses first (R13), and no island round opens
when that close has returned the ring to FOLLOWING (R17). -/
def islandRoundDue (now : Nat) (s : State) : State :=
  if s.ring.mode ≠ .following ∧ s.ring.islandDue ≤ now then
    let t := lapseRound s
    if t.ring.mode = .following then t else openIsland now t
  else s

/-- 8 × the estimate passes in REJOINING with no tower head (R17). -/
def rejoinTimeout (now : Nat) (s : State) : State :=
  if s.ring.mode = .rejoining ∧ s.ring.towerTimer + 8 * estimateNow s ≤ now then
    { s with ring := { s.ring with mode := .island, rejoin := 0 } }
  else s

/-! ### Cold reset (R19, R164) -/

/-- The state at power-up at time `now`, before any cause rises. The levels of the input lines are the
outside's; the queue of commands and the open choices are the model's own (log 26). -/
def coldState (now : Nat) (s : State) : State :=
  { State.coldBase with
    ring := { Ring.cold with towerTimer := now }
    lines := { State.coldBase.lines with estopIn := s.lines.estopIn, serviceKey := s.lines.serviceKey }
    choices := s.choices
    choiceNo := s.choiceNo
    pending := s.pending }

/-- Power-up (R19, R164). -/
def coldReset (now : Nat) (s : State) : State :=
  resetRises (coldState now s)

end Sys2Proof.Machine
end

