-- ==== Sys2Proof/Machine/Rows.lean ====
section
/-! DEFINITION. The meanings of the commands, one definition for each row of the opcode table. The rows of
counts and conditions act when their condition stands (log 1), request rows in FOLLOWING (R8; log 11). -/

namespace Sys2Proof.Machine

/-- The outcome of every meaning: a next state. -/
abbrev Out := Host.Outcome State Fault Refusal

/-- A request reaches the management unit in FOLLOWING alone (R8): in ISLAND and REJOINING the tower's rounds
are discarded, and nothing happens (log 11). -/
def inFollowing (f : State → State) (s : State) : State :=
  if s.ring.mode = .following then f s else s

/-- A change of the pumps, after which PUMPS_SHORT is judged and F_c is formed (R138, R140). A state that the
change leaves as it was is left as it is. -/
def pumpsSettled (f : State → State) (s : State) : State :=
  let t := f s
  if t.pumps = s.pumps then t else formFactor (shortTest t)

/-- SERVICE_KEY takes a level: no state of its own changes (R173). -/
def serviceKeyTurned (on : Bool) (s : State) : State :=
  { s with lines := { s.lines with serviceKey := on } }

/-- COLD_RESET. R19, R164. Power-up: every block at its cold values, then the rises of the cause unit. -/
def execColdReset (now : Nat) (s : State) : Out :=
  .next (coldReset now s)

/-- TOWER_HEAD. R1, R4. A cell on the tower port while it awaits a head. The position is the port's own count (log 12). -/
def execTowerHead (c : Cell) (now : Nat) (s : State) : Out :=
  .next (towerPortCell c now s)

/-- AWAIT_HEAD_TIMEOUT. R1. The tower port returns to awaiting a head. -/
def execAwaitHeadTimeout (now : Nat) (s : State) : Out :=
  .next (awaitDue now s)

/-- SETPOINT_ARRIVAL. R7, R90. The slot 1 cell on the tower port. -/
def execSetpointArrival (c : Cell) (now : Nat) (s : State) : Out :=
  .next (towerPortCell c now s)

/-- DOWNSTREAM_CELL. R6, R8, R9. A later cell on the tower port. -/
def execDownstreamCell (c : Cell) (now : Nat) (s : State) : Out :=
  .next (towerPortCell c now s)

/-- FORMAT_FAILURE. R174. Answered REFUSED_FORMAT with the tag echoed, nothing done. -/
def execFormatFailure (a : Cell) (s : State) : Out :=
  .next (inFollowing (formatFailed a) s)

/-- RETURNING_HEAD. R10. A cell on node-in, awaited as the returning head of the round out. -/
def execReturningHead (c : Cell) (s : State) : Out :=
  .next (nodeInCell c s)

/-- NODE_SLOT_ARRIVAL. R10, R25 to R27. A node slot on node-in. -/
def execNodeSlotArrival (c : Cell) (s : State) : Out :=
  .next (nodeInCell c s)

/-- RESERVED_SLOT_WRITE. R11. Slots 4 to 8 of the upstream leg. -/
def execReservedSlotWrite (c : Cell) (s : State) : Out :=
  .next (nodeInCell c s)

/-- ROUND_CLOSE. R12. The tail on node-in closes the round. -/
def execRoundClose (c : Cell) (s : State) : Out :=
  .next (nodeInCell c s)

/-- ROUND_LAPSE. R13. The lapse timeout of the round out. -/
def execRoundLapse (now : Nat) (s : State) : Out :=
  .next (lapseTimeout now s)

/-- RING_BREAK. R14. The node-ring break condition begins when the lapse counter has reached 3. -/
def execRingBreak (s : State) : Out :=
  .next (ringBreak s)

/-- RING_BREAK_END. R14. The break condition ends when the return count has reached 16. -/
def execRingBreakEnd (s : State) : Out :=
  .next (ringBreakEnd s)

/-- TOWER_LOSS. R15, R16. ISLAND, and the first island round. -/
def execTowerLoss (now : Nat) (s : State) : Out :=
  .next (towerLoss now s)

/-- ISLAND_ROUND. R16. The next island round falls due. -/
def execIslandRound (now : Nat) (s : State) : Out :=
  .next (islandRoundDue now s)

/-- REJOIN_TIMEOUT. R17. Back to ISLAND. -/
def execRejoinTimeout (now : Nat) (s : State) : Out :=
  .next (rejoinTimeout now s)

/-- REJOIN_COMPLETE. R17. Back to FOLLOWING. -/
def execRejoinComplete (s : State) : Out :=
  .next (rejoinComplete s)

/-- CHANNEL_STALE. R37. Channel `ch` becomes STALE. -/
def execChannelStale (ch : Fin 128) (s : State) : Out :=
  .next (channelStale ch s)

/-- SETPOINT_LOSS. R91. The setpoint is lost. -/
def execSetpointLoss (s : State) : Out :=
  .next (setpointLost s)

/-- DECIMATION_TICK. R113 to R118. A decimation tick. -/
def execDecimationTick (s : State) : Out :=
  .next (decimationTick s)

/-- AUTOMATIC_START. R118. An automatic start. -/
def execAutomaticStart (s : State) : Out :=
  .next (automaticStart s)

/-- RELEASE_END. R119, R120. A release ends in its slew. -/
def execReleaseEnd (s : State) : Out :=
  .next (releaseEnd s)

/-- BRAKE_STUCK. R119, R124. The release timeout. -/
def execBrakeStuck (s : State) : Out :=
  .next (brakeStuck s)

/-- GROUP_B_START. R120. Motor group B on. -/
def execGroupBStart (s : State) : Out :=
  .next (groupBStart s)

/-- YAW_STALL. R122. The end of a stall window. -/
def execYawStall (s : State) : Out :=
  .next (yawStall s)

/-- YAW_OVERTIME. R122. Overtime of an automatic slew. -/
def execYawOvertime (s : State) : Out :=
  .next (yawOvertime s)

/-- COAST_END. R123. STOPPING to BRAKING. -/
def execCoastEnd (s : State) : Out :=
  .next (coastEnd s)

/-- BRAKE_END. R123, R113. BRAKING to PARKED or HELD. -/
def execBrakeEnd (s : State) : Out :=
  .next (brakeEnd s)

/-- IDLE_CONFIRM. R126, R127. UNWIND_WAIT to UNWINDING. -/
def execIdleConfirm (s : State) : Out :=
  .next (idleConfirm s)

/-- UNWIND_BLOCKED. R126. The wait for idle has lasted too long. -/
def execUnwindBlocked (s : State) : Out :=
  .next (unwindBlocked s)

/-- JOG_END. R128. The jog has made its rounds. -/
def execJogEnd (s : State) : Out :=
  .next (jogEnd s)

/-- PUMP_START_FAIL. R137. Pump `k` fails at its start. -/
def execPumpStartFail (k : Fin 3) (s : State) : Out :=
  .next (pumpsSettled (pumpStartFail k) s)

/-- PUMP_FLOW_FAIL. R138. Pump `k` has lost its flow. -/
def execPumpFlowFail (k : Fin 3) (s : State) : Out :=
  .next (pumpsSettled (pumpFlowFail k) s)

/-- RUN_MINUTE. R139. A run minute of pump `k`. -/
def execRunMinute (k : Fin 3) (s : State) : Out :=
  .next (runMinute k s)

/-- THERMAL_STAGE_STEP. R141. The thermal stage moves by one. -/
def execThermalStageStep (s : State) : Out :=
  .next (thermalStageStep s)

/-- FAN_STEP. R142. The commanded stage moves one step. -/
def execFanStep (s : State) : Out :=
  .next (fanStep s)

/-- DRY_CONFIRM. R146. The dry permissive is gained. -/
def execDryConfirm (s : State) : Out :=
  .next (dryConfirm s)

/-- ESTOP_ASSERTED. R168. ESTOP_IN becomes asserted. -/
def execEstopAsserted (s : State) : Out :=
  .next (estopOn s)

/-- ESTOP_DEASSERTED. R168. ESTOP_IN becomes deasserted. -/
def execEstopDeasserted (s : State) : Out :=
  .next (estopOff s)

/-- SERVICE_KEY_CHANGE. R173, R176. SERVICE_KEY takes the level `on`. -/
def execServiceKeyChange (on : Bool) (s : State) : Out :=
  .next (serviceKeyTurned on s)

/-- READ. R177. A READ request. -/
def execRead (table : Octet) (r : ReqArgs) (s : State) : Out :=
  .next (inFollowing (readRequest table r) s)

/-- WRITE. R178. A WRITE request. -/
def execWrite (table : Octet) (r : ReqArgs) (s : State) : Out :=
  .next (inFollowing (writeRequest table r) s)

/-- MODE_WRITE. R180. A write of the mode record. -/
def execModeWrite (r : ReqArgs) (s : State) : Out :=
  .next (inFollowing (writeRequest 15 r) s)

/-- SLOT_MAP_WRITE. R23. A write of the slot map. -/
def execSlotMapWrite (r : ReqArgs) (s : State) : Out :=
  .next (inFollowing (writeRequest 2 r) s)

/-- CHANNEL_CONFIG_WRITE. R39. A write of the channel table, or with `remap` of the remap table. -/
def execChannelConfigWrite (remap : Bool) (r : ReqArgs) (s : State) : Out :=
  .next (inFollowing (writeRequest (if remap then 4 else 3) r) s)

/-- CURVE_COUNT_WRITE. R48. A write of a curve's count. -/
def execCurveCountWrite (r : ReqArgs) (s : State) : Out :=
  .next (inFollowing (writeRequest 6 { r with field := 0 }) s)

/-- LIMIT_WRITE. R66, R67. A write of the limit table. -/
def execLimitWrite (r : ReqArgs) (s : State) : Out :=
  .next (inFollowing (writeRequest 5 r) s)

/-- COMMAND_PLAN_WRITE. R182. A write of the command plan. -/
def execCommandPlanWrite (r : ReqArgs) (s : State) : Out :=
  .next (inFollowing (writeRequest 7 r) s)

/-- SECTION_PRESENT_WRITE. R73. A write of a section's present flag. -/
def execSectionPresentWrite (r : ReqArgs) (s : State) : Out :=
  .next (inFollowing (writeRequest 8 { r with field := 0 }) s)

/-- SECTION_BLIND_WRITE. R70. A write of section_blind. -/
def execSectionBlindWrite (r : ReqArgs) (s : State) : Out :=
  .next (inFollowing (writeRequest 9 { r with field := 3 }) s)

/-- TWIST_WRITE. R111. A write of twist. -/
def execTwistWrite (r : ReqArgs) (s : State) : Out :=
  .next (inFollowing (writeRequest 11 { r with field := 0 }) s)

/-- PUMP_PRESENT_WRITE. R148. A write of a pump's present flag. -/
def execPumpPresentWrite (r : ReqArgs) (s : State) : Out :=
  .next (inFollowing (writeRequest 13 { r with field := 0 }) s)

/-- PUMP_STATE_WRITE. R148. A write of a pump's state. -/
def execPumpStateWrite (r : ReqArgs) (s : State) : Out :=
  .next (inFollowing (writeRequest 13 { r with field := 3 }) s)

/-- CAUSE_ENABLE_WRITE. R158. A write of a cause's enables. -/
def execCauseEnableWrite (r : ReqArgs) (s : State) : Out :=
  .next (inFollowing (writeRequest 14 r) s)

/-- CLEAR. R155, R183. A CLEAR request. -/
def execClear (table : Octet) (r : ReqArgs) (s : State) : Out :=
  .next (inFollowing (clearRequest table r) s)

/-- STATUS_REQUEST. R185. A STATUS request. -/
def execStatusRequest (table : Octet) (r : ReqArgs) (s : State) : Out :=
  .next (inFollowing (statusRequest table r) s)

/-- START. R166. -/
def execStart (r : ReqArgs) (s : State) : Out :=
  .next (inFollowing (commandRequest 1 startCommand r) s)

/-- STOP. R167. -/
def execStop (r : ReqArgs) (s : State) : Out :=
  .next (inFollowing (commandRequest 2 stopCommand r) s)

/-- RESTART. R171. -/
def execRestart (r : ReqArgs) (s : State) : Out :=
  .next (inFollowing (commandRequest 3 restartCommand r) s)

/-- TEST_ENTER. R169. -/
def execTestEnter (r : ReqArgs) (s : State) : Out :=
  .next (inFollowing (commandRequest 4 testEnterCommand r) s)

/-- TEST_EXIT. R169. -/
def execTestExit (r : ReqArgs) (s : State) : Out :=
  .next (inFollowing (commandRequest 5 testExitCommand r) s)

/-- SECTION_RELEASE. R74. -/
def execSectionRelease (r : ReqArgs) (s : State) : Out :=
  .next (inFollowing (commandRequest 6 (sectionReleaseCommand r) r) s)

/-- SECTION_HOLD. R75. -/
def execSectionHold (r : ReqArgs) (s : State) : Out :=
  .next (inFollowing (commandRequest 7 (sectionHoldCommand r) r) s)

/-- YAW_RESUME. R124. -/
def execYawResume (r : ReqArgs) (s : State) : Out :=
  .next (inFollowing (commandRequest 8 yawResumeCommand r) s)

/-- YAW_UNWIND. R125. -/
def execYawUnwind (r : ReqArgs) (s : State) : Out :=
  .next (inFollowing (commandRequest 9 yawUnwindCommand r) s)

/-- YAW_JOG. R128. -/
def execYawJog (r : ReqArgs) (s : State) : Out :=
  .next (inFollowing (commandRequest 10 (yawJogCommand r) r) s)

/-- INJECT_VALUE. R170. -/
def execInjectValue (r : ReqArgs) (s : State) : Out :=
  .next (inFollowing (commandRequest 11 (injectValueCommand r) r) s)

/-- INJECT_CAUSE. R162. -/
def execInjectCause (r : ReqArgs) (s : State) : Out :=
  .next (inFollowing (commandRequest 12 (injectCauseCommand r) r) s)

/-- RELEASE_FORCE. R170. -/
def execReleaseForce (r : ReqArgs) (s : State) : Out :=
  .next (inFollowing (commandRequest 13 (releaseForceCommand r) r) s)

/-- UPSTREAM_RESERVED_FORWARD. R10. Slots 1 to 3 of the upstream leg. -/
def execUpstreamReservedForward (c : Cell) (s : State) : Out :=
  .next (nodeInCell c s)

end Sys2Proof.Machine
end

