-- ==== Sys2Proof/Machine/Dispatch.lean ====
section
/-! DEFINITION. One arm per command: a direct call of its meaning. -/

namespace Sys2Proof.Machine

def exec (i : Instr) (s : State) : Host.Outcome State Fault Refusal :=
  match i with
  | .coldReset now => Sys2Proof.Machine.execColdReset now s
  | .towerHead c now => Sys2Proof.Machine.execTowerHead c now s
  | .awaitHeadTimeout now => Sys2Proof.Machine.execAwaitHeadTimeout now s
  | .setpointArrival c now => Sys2Proof.Machine.execSetpointArrival c now s
  | .downstreamCell c now => Sys2Proof.Machine.execDownstreamCell c now s
  | .formatFailure a => Sys2Proof.Machine.execFormatFailure a s
  | .returningHead c => Sys2Proof.Machine.execReturningHead c s
  | .nodeSlotArrival c => Sys2Proof.Machine.execNodeSlotArrival c s
  | .reservedSlotWrite c => Sys2Proof.Machine.execReservedSlotWrite c s
  | .roundClose c => Sys2Proof.Machine.execRoundClose c s
  | .roundLapse now => Sys2Proof.Machine.execRoundLapse now s
  | .ringBreak => Sys2Proof.Machine.execRingBreak s
  | .ringBreakEnd => Sys2Proof.Machine.execRingBreakEnd s
  | .towerLoss now => Sys2Proof.Machine.execTowerLoss now s
  | .islandRound now => Sys2Proof.Machine.execIslandRound now s
  | .rejoinTimeout now => Sys2Proof.Machine.execRejoinTimeout now s
  | .rejoinComplete => Sys2Proof.Machine.execRejoinComplete s
  | .channelStale ch => Sys2Proof.Machine.execChannelStale ch s
  | .setpointLoss => Sys2Proof.Machine.execSetpointLoss s
  | .decimationTick => Sys2Proof.Machine.execDecimationTick s
  | .automaticStart => Sys2Proof.Machine.execAutomaticStart s
  | .releaseEnd => Sys2Proof.Machine.execReleaseEnd s
  | .brakeStuck => Sys2Proof.Machine.execBrakeStuck s
  | .groupBStart => Sys2Proof.Machine.execGroupBStart s
  | .yawStall => Sys2Proof.Machine.execYawStall s
  | .yawOvertime => Sys2Proof.Machine.execYawOvertime s
  | .coastEnd => Sys2Proof.Machine.execCoastEnd s
  | .brakeEnd => Sys2Proof.Machine.execBrakeEnd s
  | .idleConfirm => Sys2Proof.Machine.execIdleConfirm s
  | .unwindBlocked => Sys2Proof.Machine.execUnwindBlocked s
  | .jogEnd => Sys2Proof.Machine.execJogEnd s
  | .pumpStartFail k => Sys2Proof.Machine.execPumpStartFail k s
  | .pumpFlowFail k => Sys2Proof.Machine.execPumpFlowFail k s
  | .runMinute k => Sys2Proof.Machine.execRunMinute k s
  | .thermalStageStep => Sys2Proof.Machine.execThermalStageStep s
  | .fanStep => Sys2Proof.Machine.execFanStep s
  | .dryConfirm => Sys2Proof.Machine.execDryConfirm s
  | .estopAsserted => Sys2Proof.Machine.execEstopAsserted s
  | .estopDeasserted => Sys2Proof.Machine.execEstopDeasserted s
  | .serviceKeyChange on => Sys2Proof.Machine.execServiceKeyChange on s
  | .read table r => Sys2Proof.Machine.execRead table r s
  | .write table r => Sys2Proof.Machine.execWrite table r s
  | .modeWrite r => Sys2Proof.Machine.execModeWrite r s
  | .slotMapWrite r => Sys2Proof.Machine.execSlotMapWrite r s
  | .channelConfigWrite remap r => Sys2Proof.Machine.execChannelConfigWrite remap r s
  | .curveCountWrite r => Sys2Proof.Machine.execCurveCountWrite r s
  | .limitWrite r => Sys2Proof.Machine.execLimitWrite r s
  | .commandPlanWrite r => Sys2Proof.Machine.execCommandPlanWrite r s
  | .sectionPresentWrite r => Sys2Proof.Machine.execSectionPresentWrite r s
  | .sectionBlindWrite r => Sys2Proof.Machine.execSectionBlindWrite r s
  | .twistWrite r => Sys2Proof.Machine.execTwistWrite r s
  | .pumpPresentWrite r => Sys2Proof.Machine.execPumpPresentWrite r s
  | .pumpStateWrite r => Sys2Proof.Machine.execPumpStateWrite r s
  | .causeEnableWrite r => Sys2Proof.Machine.execCauseEnableWrite r s
  | .clear table r => Sys2Proof.Machine.execClear table r s
  | .statusRequest table r => Sys2Proof.Machine.execStatusRequest table r s
  | .start r => Sys2Proof.Machine.execStart r s
  | .stop r => Sys2Proof.Machine.execStop r s
  | .restart r => Sys2Proof.Machine.execRestart r s
  | .testEnter r => Sys2Proof.Machine.execTestEnter r s
  | .testExit r => Sys2Proof.Machine.execTestExit r s
  | .sectionRelease r => Sys2Proof.Machine.execSectionRelease r s
  | .sectionHold r => Sys2Proof.Machine.execSectionHold r s
  | .yawResume r => Sys2Proof.Machine.execYawResume r s
  | .yawUnwind r => Sys2Proof.Machine.execYawUnwind r s
  | .yawJog r => Sys2Proof.Machine.execYawJog r s
  | .injectValue r => Sys2Proof.Machine.execInjectValue r s
  | .injectCause r => Sys2Proof.Machine.execInjectCause r s
  | .releaseForce r => Sys2Proof.Machine.execReleaseForce r s
  | .upstreamReservedForward c => Sys2Proof.Machine.execUpstreamReservedForward c s

end Sys2Proof.Machine
end

