-- ==== Sys2Proof/Machine/Step.lean ====
section
/-! DEFINITION. One step of the N48: the command at the front of the queue. -/

namespace Sys2Proof.Machine

/-- Take the command at the front of the queue; with none waiting the part idles (log 4). -/
def step (s : State) : Host.Outcome State Fault Refusal :=
  match s.pending with
  | [] => .next s
  | c :: rest => exec c { s with pending := rest }

/-- The state with the command that a word of the table spells at the front of its queue; unchanged where
the word spells none, as every word does (log 5). -/
def State.withFetchWord (s : State) (nbits w : Nat) : State :=
  match decodeTableWord nbits w with
  | some c => { s with pending := c :: s.pending }
  | none => s

end Sys2Proof.Machine
end

