-- ==== Sys2Proof/Safety.lean ====
section
/-! DEFINITION. What counts as a safe state of the N48, and the conditions in whose terms claims are
stated. -/

namespace Sys2Proof.Machine

/-- The demands of the N48 to the nacelle hardware agree with the states behind them, and no bounded store
has outgrown its bound. -/
structure Safe (s : State) : Prop where
  /-- STOP_OUT is asserted in every state but OPERATING (R173). -/
  stopLine : s.lines.stopOut = decide (s.sup.nacelle ≠ .operating)
  /-- BRAKE_HOLD is asserted exactly in the yaw states that apply the brake (R117, R173). -/
  brakeLine : s.lines.brakeHold = brakeApplied s.yaw.mode
  /-- An ONLINE section is found in OPERATING alone (R81). -/
  onlineOperating : ∀ i : Fin 6, s.sects[i].state = .online → s.sup.nacelle = .operating
  /-- No OPERATING nacelle stands in a node-ring break or with ESTOP_IN asserted (R14, R166, R168). -/
  operatingClear : s.sup.nacelle = .operating → s.ring.broken = false ∧ s.lines.estopIn = false
  /-- The report queue never holds more than 32 records (R159). -/
  queueBound : s.reports.queue.length ≤ 32
  /-- The misalignment window holds at most 64 entries (R113). -/
  windowBound : s.yaw.window.length ≤ 64

/-- No enabled command-plan entry shares its slot or its object with another enabled entry, and none lies
within an enabled slot-map window (R23, R182). -/
structure PlanApart (s : State) : Prop where
  slots : ∀ j k : Fin 16, s.plan[j].enable = true → s.plan[k].enable = true → j ≠ k →
    s.plan[j].slot ≠ s.plan[k].slot ∧ s.plan[j].object ≠ s.plan[k].object
  windows : ∀ (k : Fin 16) (i : Fin 32), s.plan[k].enable = true → s.windows[i].enable = true →
    ¬ (s.windows[i].base ≤ s.plan[k].slot ∧ s.plan[k].slot < s.windows[i].base + s.windows[i].size)

/-- A request of the arguments `r` is taken: the ring is FOLLOWING (R8), the claimed authority exists (R174),
and the effective authority reaches `level` (R176). -/
def ReachedAt (level : Authority) (r : ReqArgs) (s : State) : Prop :=
  s.ring.mode = .following ∧ ∃ a, claimedAuthority r.claimed = some a ∧
    (effectiveAuthority s.lines.serviceKey a).reaches level = true

/-- The tower port stands at position `pos` of a FOLLOWING round it forwards, before the await timeout at
time `now` (R1, R6). -/
def Forwarding (s : State) (p : TowerCount) (pos now : Nat) : Prop :=
  s.ring.mode = .following ∧ s.ring.port = some p ∧ p.forwarded = true ∧ p.nextPos = pos ∧
    now < p.startedAt + 2 * estimateNow s

/-- The head of the round out has returned, and `pos` is the next position on node-in (R10). -/
def Returning (s : State) (o : RoundOut) (pos : Nat) : Prop :=
  s.ring.roundOut = some o ∧ o.headReturned = true ∧ o.nextPos = pos

/-- The count of the tower port after the cell at its next position (R1). -/
def portAfter (p : TowerCount) : Option TowerCount :=
  if p.nextPos < p.last then some { p with nextPos := p.nextPos + 1 } else none

/-- The state with the rise of CELL_CHECK that the cell brings, if it fails its check at `pos` on a port
(R1, R18). -/
def checked (port : Nat) (c : Cell) (pos : Nat) (s : State) : State :=
  if cellPasses c pos then s
  else raise CauseNo.cellCheck .none .none (some (unsignedFigure (256 * port + pos))) s

/-- What a command object's COMMAND cell carries as the state stands: `leaves value flags` holds of the value and the
flags of `object` (R9). A section gives its issued reference with RUN while it is ONLINE outside TEST, 0 with ISOLATE
while it is ISOLATED, and 0 without flags otherwise (R85); the yaw its motor groups, 1 and 2, with 4 for CCW, and
BRAKE_RELEASE (R117); a pump 1 when it is present and commanded ON, the fans the commanded stage, and the heater 1 when
it is ON, without flags (R147). -/
def ObjectLeaves (s : State) (object : Fin 12) (leaves : Nat → Nat → Prop) : Prop :=
  (∀ i : Fin 6, object.val = i.val →
    (s.sects[i].state = .online → s.sup.nacelle ≠ .test → leaves s.power.issued[i] 1) ∧
    (s.sects[i].state = .online → s.sup.nacelle = .test → leaves 0 0) ∧
    (s.sects[i].state = .isolated → leaves 0 2) ∧
    (s.sects[i].state = .held ∨ s.sects[i].state = .absent → leaves 0 0)) ∧
  (object = 6 →
    let y := s.yaw
    let slewing := decide (y.mode = .slewing ∨ (y.mode = .unwinding ∨ y.mode = .jogging) ∧ y.phase = .slew)
    let still := decide (y.mode = .parked ∨ y.mode = .unwindWait ∨ y.mode = .held)
    leaves ((if slewing then if y.groupB then 3 else 1 else 0) + if !still && y.turn = .ccw then 4 else 0)
      (if still || y.mode = .braking then 0 else 4)) ∧
  (∀ j : Fin 3, object.val = 7 + j.val →
    leaves (if s.pumps[j].present && s.pumps[j].commanded then 1 else 0) 0) ∧
  (object = 10 → leaves s.cool.commanded 0) ∧ (object = 11 → leaves (if s.cool.heater then 1 else 0) 0)

/-- The state after a command, or the state itself should the command stop. -/
def stateAfter (i : Instr) (s : State) : State :=
  match exec i s with
  | .next t => t
  | _ => s

end Sys2Proof.Machine
end

