-- ==== Sys2Proof/WellFormed.lean ====
section
/-! DEFINITION. Which terms stand for a command of their row: a WRITE names a field that has no row of its
own, a row of one field names that field, a request claims an authority that exists. -/

namespace Sys2Proof.WellFormed

/-- A claimed authority that exists: a request without one is a format failure (R174). -/
def claims (r : ReqArgs) : Bool :=
  (Machine.claimedAuthority r.claimed).isSome

/-- The tables all of whose writes have a row of their own. -/
def ownTable (table : Octet) : Bool :=
  decide (table.toNat ∈ [2, 3, 4, 5, 7, 15])

/-- The fields of other tables whose writes have a row of their own. -/
def ownField (table field : Octet) : Bool :=
  decide ((table.toNat, field.toNat) ∈
    [(6, 0), (8, 0), (9, 3), (11, 0), (13, 0), (13, 3), (14, 2), (14, 3)])

/-- A request whose field is the row's one field. -/
def namesField (r : ReqArgs) (field : Octet) : Bool :=
  claims r && r.field = field

/-- The command is one of its row. -/
def command : Instr → Bool
  | .coldReset _ | .towerHead _ _ | .awaitHeadTimeout _ | .setpointArrival _ _ | .downstreamCell _ _ => true
  | .formatFailure a => Machine.cellPasses a 2 && a.kind = Machine.Kind.mreqA
  | .returningHead _ | .nodeSlotArrival _ | .reservedSlotWrite _ | .roundClose _ => true
  | .roundLapse _ | .ringBreak | .ringBreakEnd | .towerLoss _ | .islandRound _ | .rejoinTimeout _ => true
  | .rejoinComplete | .channelStale _ | .setpointLoss | .decimationTick | .automaticStart => true
  | .releaseEnd | .brakeStuck | .groupBStart | .yawStall | .yawOvertime | .coastEnd | .brakeEnd => true
  | .idleConfirm | .unwindBlocked | .jogEnd => true
  | .pumpStartFail _ | .pumpFlowFail _ | .runMinute _ | .thermalStageStep | .fanStep | .dryConfirm => true
  | .estopAsserted | .estopDeasserted | .serviceKeyChange _ => true
  | .read _ r => claims r
  | .write table r => claims r && !ownTable table && !ownField table r.field
  | .modeWrite r | .slotMapWrite r | .channelConfigWrite _ r | .limitWrite r | .commandPlanWrite r => claims r
  | .curveCountWrite r | .sectionPresentWrite r | .twistWrite r | .pumpPresentWrite r => namesField r 0
  | .sectionBlindWrite r | .pumpStateWrite r => namesField r 3
  | .causeEnableWrite r => namesField r 2 || namesField r 3
  | .clear _ r | .statusRequest _ r | .start r | .stop r | .restart r | .testEnter r | .testExit r => claims r
  | .sectionRelease r | .sectionHold r | .yawResume r | .yawUnwind r | .yawJog r => claims r
  | .injectValue r | .injectCause r | .releaseForce r => claims r
  | .upstreamReservedForward _ => true

end Sys2Proof.WellFormed
end

