-- ==== Sys2Proof/Certificates/Slice0/Obligations.lean ====
section
/-! DEFINITION. The statements for the provers. Where a statement gives the next state as a record update,
every part of the state that the update does not name is unchanged: that is its frame. -/

open Sys2Proof Sys2Proof.Machine

/-! ### The queue of commands -/

/-- A step takes the command at the front of the queue and answers its meaning on the state with the rest; an
empty queue idles. The queue and the idling are the model's choice (log 4). -/
def Obligations.StepTakesFrontCommand : Prop :=
  (∀ (c : Instr) (s : State), step { s with pending := c :: s.pending } = exec c s) ∧
    ∀ s : State, s.pending = [] → step s = .next s

/-- No command faults or is refused by the model, and none touches the queue of waiting commands: a request
that the part refuses is answered (R175), a cell that fails is replaced or forwarded (R1). The queue is the
model's own, and so is its surviving COLD_RESET (log 10, log 26). -/
def Obligations.EveryCommandAnswersAndKeepsQueue : Prop :=
  ∀ (c : Instr) (s : State), ∃ t, exec c s = .next t ∧ t.pending = s.pending

/-! ### Invariants -/

/-- Every step from a safe state leaves a safe state (R14, R81, R113, R117, R159, R173). -/
def Obligations.SafeKeptByEveryStep : Prop :=
  ∀ s t : State, Safe s → step s = .next t → Safe t

/-- Every step keeps command plan and slot map apart (R23, R182). -/
def Obligations.PlanApartKeptByEveryStep : Prop :=
  ∀ s t : State, PlanApart s → step s = .next t → PlanApart t

/-- The state right after reset is safe, keeps plan and slot map apart, and holds the cold values that the
spec states for the ring, the supervisor, the output lines, the twist, the ceiling and the cooling unit. That
ESTOP_IN is deasserted at reset is the model's choice (log 6): on it rests that TWIST_UNKNOWN and COOLING_BLIND
alone are pending, with their two records, and not EXTERNAL_STOP (R168). -/
def Obligations.ResetStateIsSafeAndCold : Prop :=
  Safe State.reset ∧ PlanApart State.reset ∧
    State.reset.ring.mode = .following ∧ State.reset.ring.extCount = 0 ∧ State.reset.ring.lapses = 0 ∧
    State.reset.ring.broken = false ∧ State.reset.ring.islandPeriod = 250 ∧
    State.reset.sup.nacelle = .loading ∧ State.reset.sup.reason = .none ∧
    State.reset.sup.mode.runEnable = false ∧ State.reset.sup.mode.yawAuto = false ∧
    State.reset.lines.stopOut = true ∧ State.reset.lines.brakeHold = true ∧
    State.reset.yaw.mode = .held ∧ State.reset.yaw.twist = 0 ∧ State.reset.yaw.twistKnown = false ∧
    State.reset.power.ceiling = 0 ∧ State.reset.cool.dry = false ∧ State.reset.cool.factor = 0 ∧
    (∀ c : Fin 128, State.reset.causes[c].pending = decide (c = 56 ∨ c = 66)) ∧
    State.reset.reports.queue.length = 2

/-! ### Power-up and the tower port -/

/-- COLD_RESET takes every part of the state to its value after reset. The levels of the two input lines stay,
and the records of TWIST_UNKNOWN, COOLING_BLIND and, with ESTOP_IN asserted, EXTERNAL_STOP stand in the queue in
one of their orders (R19, R164, R168). The queue of commands and the open choices are the model's own
(log 2, log 26). -/
def Obligations.ColdResetRestoresResetState : Prop :=
  ∀ (now : Nat) (s : State), ∃ t, exec (.coldReset now) s = .next t ∧
    t.reports.queue.Perm ([FaultRecord.coldTwist, FaultRecord.coldCooling] ++
      if s.lines.estopIn then
        [{ cause := 6, stamp := 0, action := .nacelleStop, subject := .none, value := none }] else []) ∧
    t = { State.reset with
      ring := { Ring.cold with towerTimer := now }
      causes := if s.lines.estopIn then State.reset.causes.set 6 { Cause.cold with pending := true }
        else State.reset.causes
      reports := { queue := t.reports.queue, overflow := false, delivering := false }
      lines := { stopOut := true, brakeHold := true, estopIn := s.lines.estopIn,
                 serviceKey := s.lines.serviceKey }
      choices := t.choices
      choiceNo := t.choiceNo
      pending := s.pending }

/-- In FOLLOWING with no round out, an accepted tower head is forwarded unchanged and opens its round;
ROUND_SEQUENCE rises first when its number does not follow the previous head's (R4, R5, R6). -/
def Obligations.AcceptedTowerHeadOpensRound : Prop :=
  ∀ (c : Cell) (now : Nat) (s : State), s.ring.mode = .following → s.ring.port = none →
    s.ring.roundOut = none → cellPasses c 0 = true → c.kind = Kind.head → c.attr = 1 → 9 ≤ lastSlot c →
    let gap := match s.ring.lastHead with
      | some h => decide (roundNumber c ≠ h.number + 1)
      | none => false
    let u := if gap then raise 3 .none .none (some (roundNumber c)) s else s
    exec (.towerHead c now) s = .next { u with ring := { s.ring with
      estimate := match s.ring.lastHead with
        | some h => some (max 100 (min (now - h.time) 2000))
        | none => s.ring.estimate
      lastHead := some { time := now, number := roundNumber c, last := lastSlot c }
      port := some { nextPos := 1, last := lastSlot c, forwarded := true, startedAt := now }
      heldRequest := none
      towerTimer := now
      nodeOut := s.ring.nodeOut ++ [c]
      lastHeadOut := some (roundNumber c)
      roundOut := some { number := roundNumber c, originator := .tower, last := lastSlot c, openedAt := now,
                         headReturned := false, nextPos := 0 } } }

/-- A rejected head raises CELL_CHECK if it failed its check and SLOT_CLASH if it passed, each with value 0, and
opens nothing: the port goes on awaiting a head (R4, R18). -/
def Obligations.RejectedTowerHeadOnlyRaises : Prop :=
  ∀ (c : Cell) (now : Nat) (s : State), s.ring.port = none →
    ¬ (cellPasses c 0 = true ∧ c.kind = Kind.head ∧ c.attr = 1 ∧ 9 ≤ lastSlot c) →
    exec (.towerHead c now) s =
      .next (raise (if cellPasses c 0 then 5 else 2) .none .none (some 0) s)

/-- In ISLAND or REJOINING an accepted tower head opens no round and sends no cell: the ring is REJOINING, and
the rejoin counter advances by one in REJOINING when the gap from the previous head is at most twice the
estimate as it stood before, and stands at 1 otherwise. The head is recorded, the estimate formed anew, and the
port counts its round, which is discarded (R1, R4, R5, R17). -/
def Obligations.TowerHeadCountsTowardRejoin : Prop :=
  ∀ (c : Cell) (now : Nat) (s : State), s.ring.mode ≠ .following → s.ring.port = none →
    cellPasses c 0 = true → c.kind = Kind.head → c.attr = 1 → 9 ≤ lastSlot c →
    let counts (n : Nat) : Prop := exec (.towerHead c now) s = .next { s with ring := { s.ring with
      mode := .rejoining
      rejoin := n
      estimate := match s.ring.lastHead with
        | some h => some (max 100 (min (now - h.time) 2000))
        | none => s.ring.estimate
      lastHead := some { time := now, number := roundNumber c, last := lastSlot c }
      port := some { nextPos := 1, last := lastSlot c, forwarded := false, startedAt := now }
      heldRequest := none
      towerTimer := now } }
    (∀ h, s.ring.mode = .rejoining → s.ring.lastHead = some h → now - h.time ≤ 2 * estimateNow s →
      counts (s.ring.rejoin + 1)) ∧
    (∀ h, s.ring.mode = .rejoining → s.ring.lastHead = some h → 2 * estimateNow s < now - h.time →
      counts 1) ∧
    (s.ring.mode = .island ∨ s.ring.lastHead = none → counts 1)

/-- A SETPOINT cell that passes its check in slot 1 of a FOLLOWING round sets R_eff, clamped to 65,535, sets the
quiet count to 0 and the arrived mark, and ends the loss. IDLE brings no setpoint, any other kind raises
SLOT_CLASH, a failed check CELL_CHECK, and IDLE leaves on node-out in every case. The quiet count reaching
setpoint_hold sets the loss flag, raises SETPOINT_LOSS with the request as it stands, and then lowers the request
by setpoint_decay, not below 0. At a close the dispatch unit clears the arrived mark, or else counts, decays the
request or tests for the loss, and then shares the ceiling (R1, R7, R90, R91, R105). -/
def Obligations.SetpointSetsAndLossDecaysRequest : Prop :=
  (∀ (c : Cell) (now : Nat) (s : State) (p : TowerCount), Forwarding s p 1 now →
    let does (u : State) : Prop := exec (.setpointArrival c now) s = .next { u with
      ring := { s.ring with port := portAfter p, nodeOut := s.ring.nodeOut ++ [idleCell 1] } }
    (cellPasses c 1 = true → c.kind = Kind.setpoint → does { s with power := { s.power with
      rEff := min c.payload.toNat 65535, quiet := 0, arrived := true, loss := false } }) ∧
    (cellPasses c 1 = true → c.kind = Kind.idle → does s) ∧
    (cellPasses c 1 = true → c.kind ≠ Kind.setpoint → c.kind ≠ Kind.idle →
      does (raise 5 .none .none (some 1) s)) ∧
    (cellPasses c 1 = false → does (raise 2 .none .none (some 1) s))) ∧
  (∀ s : State, s.power.loss = false → s.power.setpointHold ≤ s.power.quiet →
    exec .setpointLoss s = .next
      { raise 32 .none .none (some (unsignedFigure s.power.rEff)) s with
        power := { s.power with loss := true, rEff := s.power.rEff - s.power.setpointDecay } }) ∧
  (∀ s : State, s.power.loss = true ∨ s.power.quiet < s.power.setpointHold → exec .setpointLoss s = .next s) ∧
  ∀ v : State,
    let p := v.power
    let counted : State := { v with power :=
      if p.arrived then { p with arrived := false }
      else { p with quiet := if p.quiet < 65535 then p.quiet + 1 else p.quiet } }
    blockClose .power v = dispatchAtClose (
      if p.loss then { counted with power := { counted.power with rEff := p.rEff - p.setpointDecay } }
      else stateAfter .setpointLoss counted)

/-- A cell in a node slot of a forwarded round leaves as received, failed cells included, unless an enabled
command-plan entry names the slot: then a COMMAND cell leaves with the value and flags of the entry's object as they
stand (R1, R6, R9). A section gives its issued reference with RUN while it is ONLINE outside TEST, 0 with ISOLATE while
it is ISOLATED, and 0 without flags otherwise (R85); the yaw its motor groups, 1 and 2, with 4 for CCW, and
BRAKE_RELEASE (R117); a pump 1 when it is present and commanded ON, the fans the commanded stage, and the heater 1 when
it is ON, without flags (R147). -/
def Obligations.DownstreamNodeSlotForwardsOrCommands : Prop :=
  ∀ (c : Cell) (now pos : Nat) (s : State) (p : TowerCount), Forwarding s p pos now → 9 ≤ pos →
    let u := checked 0 c pos s
    let sent (x : Cell) : State :=
      { u with ring := { s.ring with port := portAfter p, nodeOut := s.ring.nodeOut ++ [x] } }
    ((∀ k : Fin 16, s.plan[k].enable = true → s.plan[k].slot ≠ pos) →
      exec (.downstreamCell c now) s = .next (sent c)) ∧
    ∀ k : Fin 16, s.plan[k].enable = true → s.plan[k].slot = pos →
      (∀ j : Fin 16, s.plan[j].enable = true → s.plan[j].slot = pos → j = k) →
      ObjectLeaves s s.plan[k].object fun value flags => exec (.downstreamCell c now) s = .next (sent
        (writeCell Kind.command 0 pos (BitVec.ofNat 32 value) (BitVec.ofNat 8 flags)))

/-- Slots 2 to 8 of a forwarded round. An MREQ_A that passes in slot 2 is held; IDLE brings no request, any other
kind raises SLOT_CLASH, a failed check CELL_CHECK. In slot 3 a held request with an MREQ_B that passes does what
the request's own row does, with anything else a format failure is answered; with none held the cell is not
examined. IDLE leaves on node-out in slots 2 and 3 in every case, and the cells of slots 4 to 8 as received, failed
ones included. A request whose operation is outside 1..5 or whose claimed authority is outside 1..3 is answered
REFUSED_FORMAT with tag, table and index echoed, field 0 and value 0, and a well-formed COMMAND whose number is outside
1..13 REFUSED_UNKNOWN with the value and the field it carried; nothing else is done for either (R1, R6, R8, R174, R175,
R184). That request rows reach the management unit directly is the model's choice
(log 11). -/
def Obligations.RequestCellsActAsRequestRow : Prop :=
  ∀ (a c : Cell) (now pos : Nat) (s : State) (p : TowerCount), Forwarding s p pos now →
    let u : State := { s with ring := { s.ring with port := portAfter p } }
    let free : State := { u with ring := { u.ring with heldRequest := none } }
    let does (t : State) : Prop := exec (.downstreamCell c now) s = .next t
    (pos = 2 →
      (cellPasses c 2 = true → c.kind = Kind.mreqA →
        does (sendNode (idleCell 2) { u with ring := { u.ring with heldRequest := some c } })) ∧
      (cellPasses c 2 = true → c.kind = Kind.idle → does (sendNode (idleCell 2) u)) ∧
      (cellPasses c 2 = true → c.kind ≠ Kind.mreqA → c.kind ≠ Kind.idle →
        does (sendNode (idleCell 2) (raise 5 .none .none (some 2) u))) ∧
      (cellPasses c 2 = false → does (sendNode (idleCell 2) (raise 2 .none .none (some 2) u)))) ∧
    (pos = 3 → s.ring.heldRequest = some a →
      let args := requestArgs a c
      let acts (i : Instr) : Prop := ∃ t, exec i free = .next t ∧ does (sendNode (idleCell 3) t)
      let formatFailure : Reply :=
        { status := .refusedFormat, table := requestTable a, index := a.payload.extractLsb' 8 16
          tag := a.payload.extractLsb' 0 8, part := false, value := 0, field := 0 }
      let answered (t : State) (r : Reply) : Prop := does (sendNode (idleCell 3) { t with reply := some r })
      let commands : List (ReqArgs → Instr) :=
        [.start, .stop, .restart, .testEnter, .testExit, .sectionRelease, .sectionHold, .yawResume, .yawUnwind,
          .yawJog, .injectValue, .injectCause, .releaseForce]
      (cellPasses c 3 = true → c.kind = Kind.mreqB →
        (a.attr = 1 → acts (.read (requestTable a) args)) ∧
        (a.attr = 2 → acts (.write (requestTable a) args)) ∧
        (a.attr = 3 → acts (.clear (requestTable a) args)) ∧
        (∀ n command, commands[n]? = some command → a.attr = 4 → (requestTable a).toNat = n + 1 →
          acts (command args)) ∧
        (a.attr = 5 → acts (.statusRequest (requestTable a) args)) ∧
        (a.attr.toNat < 1 ∨ 5 < a.attr.toNat ∨ a.ext.toNat < 1 ∨ 3 < a.ext.toNat → answered free formatFailure) ∧
        (a.attr = 4 → (requestTable a).toNat < 1 ∨ 13 < (requestTable a).toNat →
          1 ≤ a.ext.toNat → a.ext.toNat ≤ 3 →
          answered free { formatFailure with status := .refusedUnknown, value := c.payload, field := c.ext })) ∧
      (¬ (cellPasses c 3 = true ∧ c.kind = Kind.mreqB) → answered (checked 0 c 3 free) formatFailure)) ∧
    (pos = 3 → s.ring.heldRequest = none → does (sendNode (idleCell 3) (checked 0 c 3 u))) ∧
    (4 ≤ pos → pos ≤ 8 → does (sendNode c (checked 0 c pos u)))

/-- Once 2 × the estimate has passed since the accepted head, the tower port awaits a head again (R1); a format
failure is answered REFUSED_FORMAT with tag, table and index echoed, field 0 and value 0, and nothing else is
done (R174). -/
def Obligations.AwaitTimeoutAndFormatFailure : Prop :=
  (∀ (now : Nat) (s : State) (p : TowerCount), s.ring.port = some p →
    p.startedAt + 2 * estimateNow s ≤ now →
    exec (.awaitHeadTimeout now) s = .next { s with ring := { s.ring with port := none } }) ∧
  ∀ (a : Cell) (s : State), s.ring.mode = .following →
    exec (.formatFailure a) s = .next { s with reply := some (
      { status := .refusedFormat, table := a.payload.extractLsb' 24 8
        index := a.payload.extractLsb' 8 16, tag := a.payload.extractLsb' 0 8
        part := false, value := 0, field := 0 }) }

/-! ### Node-in -/

/-- The returning head of the round out is forwarded upstream and positions count from it; any other cell
before it changes nothing (R10). That a cell that fails its check changes nothing there either is the model's
reading (log 25). -/
def Obligations.ReturningHeadStartsUpstreamLeg : Prop :=
  ∀ (c : Cell) (s : State) (o : RoundOut), s.ring.roundOut = some o → o.headReturned = false →
    let code : BitVec 4 := if o.originator = .tower then 1 else 2
    ((cellPasses c 0 = true ∧ c.kind = Kind.head ∧ c.attr = code ∧ roundNumber c = o.number) →
      exec (.returningHead c) s = .next { s with ring := { s.ring with
        roundOut := some { o with headReturned := true, nextPos := 1 }
        towerOut := s.ring.towerOut ++ [c] } }) ∧
    (¬ (cellPasses c 0 = true ∧ c.kind = Kind.head ∧ c.attr = code ∧ roundNumber c = o.number) →
      exec (.returningHead c) s = .next s)

/-- Slots 4 to 8 of the upstream leg are replaced: the reply's two cells or IDLE, the oldest record's two cells
or IDLE with the record leaving the queue at slot 7, and STATUS (R11, R160). -/
def Obligations.ReservedSlotsCarryReplyReportStatus : Prop :=
  ∀ (c : Cell) (s : State) (o : RoundOut) (pos : Nat), Returning s o pos → 8 < o.last →
    let sent (u : State) (x : Cell) : State :=
      { u with ring := { s.ring with
        roundOut := some { o with nextPos := pos + 1 }, towerOut := s.ring.towerOut ++ [x] } }
    let u := checked 1 c pos s
    (pos = 4 → exec (.reservedSlotWrite c) s = .next (sent u
      (match s.reply with | some r => replyCellA r | none => idleCell 4))) ∧
    (pos = 5 → exec (.reservedSlotWrite c) s = .next (sent { u with reply := none }
      (match s.reply with | some r => replyCellB r | none => idleCell 5))) ∧
    (pos = 6 → ∀ x rest, u.reports.queue = x :: rest → s.ring.mode = .following →
      s.sup.mode.reportHold = false → exec (.reservedSlotWrite c) s =
        .next (sent { u with reports := { u.reports with delivering := true } } (reportCellA x))) ∧
    (pos = 6 → (u.reports.queue = [] ∨ s.ring.mode ≠ .following ∨ s.sup.mode.reportHold = true) →
      exec (.reservedSlotWrite c) s = .next (sent u (idleCell 6))) ∧
    (pos = 7 → ∀ x rest, u.reports.queue = x :: rest → s.reports.delivering = true →
      exec (.reservedSlotWrite c) s =
        .next (sent { u with reports := { u.reports with queue := rest, delivering := false } }
          (reportCellB x))) ∧
    (pos = 7 → s.reports.delivering = false →
      exec (.reservedSlotWrite c) s = .next (sent u (idleCell 7))) ∧
    (pos = 8 → exec (.reservedSlotWrite c) s = .next (sent u
      (writeCell Kind.status (BitVec.ofNat 4 (ringCode s.ring.mode)) 8
        (BitVec.ofNat 16 s.power.ceiling ++ BitVec.ofNat 8 (nacelleCode s.sup.nacelle) ++
          BitVec.ofNat 8 (causeCode (topCause u)))
        (BitVec.ofNat 8 (statusFlags u)))))

/-- A cell that nothing reads is forwarded upstream as received, whatever it carries: one returning in slots 1 to 3,
and one in a node slot that lies in no enabled window and is no command-plan slot. A failed check raises
CELL_CHECK, with value 256 + slot. A cell in a command-plan slot is forwarded as received too, and raises SLOT_CLASH
with that value when it passes its check and is of another kind than COMMAND (R1, R10, R18, R21). -/
def Obligations.UpstreamCellsReadByNothingAreForwarded : Prop :=
  ∀ (c : Cell) (s : State) (o : RoundOut) (pos : Nat), Returning s o pos → pos < o.last →
    let sent : State := { checked 1 c pos s with ring := { s.ring with
      roundOut := some { o with nextPos := pos + 1 }, towerOut := s.ring.towerOut ++ [c] } }
    (1 ≤ pos → pos ≤ 3 → exec (.upstreamReservedForward c) s = .next sent) ∧
    (9 ≤ pos → s.lowHalf = none →
      (∀ i : Fin 32, s.windows[i].enable = true →
        ¬ (s.windows[i].base ≤ pos ∧ pos < s.windows[i].base + s.windows[i].size)) →
      (∀ k : Fin 16, s.plan[k].enable = true → s.plan[k].slot ≠ pos) →
      exec (.nodeSlotArrival c) s = .next sent) ∧
    ∀ k : Fin 16, 9 ≤ pos → s.plan[k].enable = true → s.plan[k].slot = pos →
      (cellPasses c pos = true → c.kind ≠ Kind.command → exec (.nodeSlotArrival c) s =
        .next (raise 5 .none .none (some (unsignedFigure (256 + pos))) sent)) ∧
      (cellPasses c pos = false ∨ c.kind = Kind.command → exec (.nodeSlotArrival c) s = .next sent)

/-! ### The channel unit -/

/-- A GOOD sample in a slot of the WIDE window `i` that owns it makes its CONFIGURED channel LIVE at the scaled and
clamped figure of its code, and records code, stamp and quiet 0; CHANNEL_CLAMPED rises exactly when the clamp changed
the figure. The first active remap entry that matches the code decides instead: SUBSTITUTE makes its substitute the
value, unscaled and unclamped, and INVALID has the code dealt with as one of BAD node quality (R33). Stated with no
reader or one (R22, R25, R31, R35, R36). A limit evaluates the value, with all that the evaluation does at once, and
the cell is then forwarded (what it does stands with the limits); a section takes its thermal factor from STACK
(R82), or READY and RUNNING, NOT_READY and FAULT from its status (R76, R78); the heading anchors, moves twist, or is
discarded (R109), ends an unwind at unwind_target (R127), and at a hard-limit crossing raises TWIST_HARD, clears
yaw_auto and sends the yaw by its state to STOPPING, to end in HELD, or to HELD, an OPERATING nacelle being stopped
(R112); the vane ends a slew (R121). The model's readings: the anchoring update leaves the reanchor mark (log 15); in
OPERATING the stop sends the yaw to HELD from every state (log 27); a slew that drives past the hard limit without a
crossing stops with the end mark set and nothing rising (log 28). The cooling unit as reader stands with INJECT_VALUE. -/
def Obligations.WideSampleBecomesChannelValue : Prop :=
  ∀ (c : Cell) (s : State) (o : RoundOut) (pos : Nat) (i : Fin 32) (ch : Fin 128),
    Returning s o pos → 9 ≤ pos → pos < o.last → s.lowHalf = none →
    (∀ k : Fin 16, s.plan[k].enable = true → s.plan[k].slot ≠ pos) →
    ownerOf s pos = some i → s.windows[i].width = .wide →
    ch.val = s.windows[i].firstChannel.val + (pos - s.windows[i].base) →
    cellPasses c pos = true → c.kind = Kind.sample → c.ext = 1 →
    s.channels[ch].configured = true → s.channels[ch].forced = false →
    let code : Half := c.payload.extractLsb' 0 16
    let x := s.channels[ch]
    let z := scaled x code
    let raw : Int := if x.rawKind = .unsigned then code.toNat else code.toInt
    let matching (k : Fin 4) : Prop := k.val < x.remapCount ∧ x.remap[k].lo ≤ raw ∧ raw ≤ x.remap[k].hi
    ∀ m : Option (Fin 4), (m = none → ∀ k, ¬ matching k) →
    (∀ k, m = some k → matching k ∧ ∀ j, j < k → ¬ matching j) →
    (∀ k, m = some k → x.remap[k].action = .invalid → exec (.nodeSlotArrival c) s = .next (sendTower c
      (processCode ch code false { s with ring := { s.ring with roundOut := some { o with nextPos := pos + 1 } } }))) ∧
    ((∀ k, m = some k → x.remap[k].action = .substitute) →
    let v := match m with
      | some k => x.remap[k].substitute
      | none => max x.clampLow (min z x.clampHigh)
    let kept : Prop := m ≠ none ∨ v = z
    let t := { s with
      channels := s.channels.set ch { x with
        state := .live, value := v, lastCode := code, stamp := s.ring.extCount, quiet := 0, gotCode := true }
      ring := { s.ring with
        roundOut := some { o with nextPos := pos + 1 }, towerOut := s.ring.towerOut ++ [c] } }
    let does (u : State) : Prop := exec (.nodeSlotArrival c) s = .next u
    (readersOf s ch = [] → (kept → does t) ∧ (¬ kept → does (raise 19 .none (.channel ch) (some code) t))) ∧
    (kept →
      (∀ j : Fin 96, readersOf s ch = [.limit j] → does (sendTower c (evaluateLimit j v
        { t with ring := { s.ring with roundOut := some { o with nextPos := pos + 1 } } }))) ∧
      (∀ j : Fin 6, readersOf s ch = [.heatsink j] →
        let f := evalCurve s.curves[CurveNo.stack] v
        does { t with sects := s.sects.set j { s.sects[j] with
          thermal := f.getD s.power.sectionBlind, blind := false, curveFallback := f.isNone } }) ∧
      (∀ j : Fin 6, readersOf s ch = [.status j] →
        let y := s.sects[j]
        let put (w : Sect) : State := { t with sects := s.sects.set j w }
        (v = 3 → does (raise 33 .isolate (.sect j) (some 3) (put { y with
          faultHold := true
          state := if y.state = .online ∨ y.state = .held then .isolated else y.state }))) ∧
        (v ≠ 3 → y.state = .isolated → does (put { y with faultHold := false })) ∧
        (v = 1 ∨ v = 2 → y.state ≠ .isolated → does t) ∧
        (v ≠ 3 → y.state = .held ∨ y.state = .absent → does t) ∧
        (v ≠ 1 → v ≠ 2 → v ≠ 3 → y.state = .online →
          does (raise 34 .none (.sect j) (some (BitVec.ofInt 16 (max (-32768) (min v 32767))))
            (put { y with state := .held })))) ∧
      (readersOf s ch = [.heading] →
        let h := (v % 3600).toNat
        let y := { s.yaw with headingLost := false }
        (s.yaw.anchor = none → does { t with yaw := { y with anchor := some h } }) ∧
        ∀ a, s.yaw.anchor = some a →
          let d : Int := ((h : Int) - a + 1800) % 3600 - 1800
          let twist := max (-2147483648) (min (s.yaw.twist + d) 2147483647)
          let moved := { y with anchor := some h, reanchor := false, twist := twist }
          let hard (w : Int) : Prop := s.yawCfg.twistHard ≤ w.natAbs
          (s.yaw.reanchor = false → s.yawCfg.maxStep < d.natAbs →
            does (raise 52 .none .none (some (BitVec.ofNat 16 h)) { t with yaw := y })) ∧
          (s.yaw.reanchor = true ∨ d.natAbs ≤ s.yawCfg.maxStep →
            let mode := s.yaw.mode
            let slewing : Prop := mode = .slewing ∨ (mode = .unwinding ∨ mode = .jogging) ∧ s.yaw.phase = .slew
            let drives : Prop := slewing ∧ hard twist ∧
              (s.yaw.turn = .cw ∧ 0 ≤ twist ∨ s.yaw.turn = .ccw ∧ twist ≤ 0)
            let met : Prop := mode = .unwinding ∧ s.yaw.phase = .slew ∧ twist.natAbs ≤ s.yawCfg.unwindTarget
            let stopped (u : State) : State := { u with
              yaw := { moved with mode := .stopping, groupB := false, coastCount := 0 }
              lines := { s.lines with brakeHold := false } }
            let marked (u : State) : State := { u with yaw := { u.yaw with endMark := true } }
            let kept (u : State) : State := { u with yaw := moved }
            let rested (u : State) : State := { u with
              lines := { u.lines with brakeHold := true }
              yaw := { moved with
                mode := .held, endMark := false, unwindMark := false
                factor := if s.yaw.unwindMark then s.yaw.saved else s.yaw.factor
                groupB := false, releaseCount := 0, staggerCount := 0, slewCount := 0, stallCount := 0
                coastCount := 0, brakeCount := 0, idleCount := 0, waitCount := 0 } }
            (twist = s.yaw.twist → does (kept t)) ∧
            (twist ≠ s.yaw.twist → hard s.yaw.twist ∨ ¬ hard twist →
              (drives → does (marked (stopped t))) ∧ (¬ drives → met → does (stopped t)) ∧
                (¬ drives → ¬ met → does (kept t))) ∧
            (¬ hard s.yaw.twist → hard twist →
              let record : Mode := { s.sup.mode with
                yawAuto := false, altered := s.sup.mode.altered || s.sup.mode.yawAuto }
              let crossed : State := { raise 53 .nacelleStop .none (some (signedFigure (twist.tdiv 10))) t with
                sup := { s.sup with mode := record } }
              let halted : State := { crossed with
                sup := { nacelle := .stopped, reason := .cause 53, mode := record }
                lines := { s.lines with stopOut := true }
                sects := s.sects.map fun x => if x.state = .online then { x with state := .held } else x }
              (s.sup.nacelle = .operating → (mode ≠ .held → does (rested halted)) ∧
                (mode = .held → does (kept halted))) ∧
              (s.sup.nacelle ≠ .operating → (slewing → does (marked (stopped crossed))) ∧
                (mode = .stopping ∨ mode = .braking → does (marked (kept crossed))) ∧
                (¬ slewing → mode ≠ .stopping → mode ≠ .braking → mode ≠ .held →
                  does (rested crossed)) ∧
                (mode = .held → does (kept crossed)))))) ∧
      (readersOf s ch = [.vane] →
        let m := max (-1800) (min v 1799)
        let ends : Prop := s.yaw.mode = .slewing ∧ (s.yaw.turn = .cw ∧ m < 0 ∨ s.yaw.turn = .ccw ∧ 0 < m ∨
          m.natAbs ≤ s.yawCfg.stopMisalign)
        (ends → does { t with
          yaw := { s.yaw with mode := .stopping, groupB := false, coastCount := 0 }
          lines := { s.lines with brakeHold := false } }) ∧
        (¬ ends → does t))))

/-- A code that no remap entry decides is scaled to (raw − offset) × gain / 4096, rounded half away from zero:
the figure lies within half a unit of the exact quotient, and an exact half moves away from zero. The product
stays below 2³³ for every combination of fields (R34). -/
def Obligations.ScalingRoundsHalfAwayFromZero : Prop :=
  ∀ (x : Channel) (code : Half), -32768 ≤ x.offset → x.offset ≤ 32767 → -32768 ≤ x.gain → x.gain ≤ 32767 →
    let raw : Int := if x.rawKind = .unsigned then code.toNat else code.toInt
    let n := (raw - x.offset) * x.gain
    n.natAbs < 2 ^ 33 ∧ (4096 * scaled x code - n).natAbs ≤ 2048 ∧
      ((4096 * scaled x code - n).natAbs = 2048 → n.natAbs < (4096 * scaled x code).natAbs)

/-- A node slot that is no command-plan slot hands its cell over by what it is: absent when it fails its check, a
sample, IDLE, or a wrong kind. A WIDE window takes a sample as its channel's code. The even slot of a NARROW pair holds
a sample's octet as the low half. The odd slot joins it: two samples give the code high octet × 256 + low octet, GOOD
when both halves are; with one half missing nothing reaches the channel, no half stays held, and PAIR_INCOMPLETE rises
with the channel and the odd slot; with both missing nothing happens. A wrong kind raises SLOT_CLASH with 256 + slot in
every mapped slot, and counts as a missing half; a half that the very next slot does not complete is discarded
(R10, R18, R21, R22, R25, R26, R27). That SLOT_CLASH comes before PAIR_INCOMPLETE there is the model's reading
(log 24). -/
def Obligations.NarrowPairJoinsItsHalves : Prop :=
  (∀ (c : Cell) (s : State) (o : RoundOut) (pos : Nat), Returning s o pos → 9 ≤ pos → pos < o.last →
    (∀ k : Fin 16, s.plan[k].enable = true → s.plan[k].slot ≠ pos) →
    exec (.nodeSlotArrival c) s = .next (sendTower c (handOver
      (if cellPasses c pos = false then .absent
        else if c.kind = Kind.sample then .sample (c.payload.extractLsb' 0 16) (decide (c.ext = 1))
        else if c.kind = Kind.idle then .idle else .wrongKind) pos
      { checked 1 c pos s with ring := { s.ring with roundOut := some { o with nextPos := pos + 1 } } }))) ∧
  (∀ (s : State) (pos : Nat) (h : LowHalf) (x : SlotContent), s.lowHalf = some h →
    (∀ i, ownerOf s pos = some i → s.windows[i].width = .narrow → (pos - s.windows[i].base) % 2 = 1 →
      pos ≠ h.slot + 1) →
    handOver x pos s = handOver x pos
      (raise 18 .none (.channel h.ch) (some (unsignedFigure (h.slot + 1))) { s with lowHalf := none })) ∧
  (∀ (s : State) (pos : Nat) (code : Half) (g : Bool), s.lowHalf = none →
    let clash := raise 5 .none .none (some (unsignedFigure (256 + pos))) s
    let quiet : Prop := handOver .idle pos s = s ∧ handOver .absent pos s = s ∧ handOver .wrongKind pos s = clash
    (ownerOf s pos = none → ∀ x, handOver x pos s = s) ∧
    ∀ (i : Fin 32) (ch : Fin 128), ownerOf s pos = some i →
      (s.windows[i].width = .wide → ch.val = s.windows[i].firstChannel.val + (pos - s.windows[i].base) →
        handOver (.sample code g) pos s = processCode ch code g s ∧ quiet) ∧
      (s.windows[i].width = .narrow → (pos - s.windows[i].base) % 2 = 0 →
        ch.val = s.windows[i].firstChannel.val + (pos - s.windows[i].base) / 2 →
        handOver (.sample code g) pos s = { s with
          lowHalf := some { slot := pos, ch, octet := BitVec.ofNat 8 code.toNat, good := g } } ∧ quiet)) ∧
  ∀ (s : State) (pos : Nat) (i : Fin 32) (ch : Fin 128) (low : Octet) (code : Half) (g1 g2 : Bool),
    ownerOf s pos = some i → s.windows[i].width = .narrow → (pos - s.windows[i].base) % 2 = 1 →
    ch.val = s.windows[i].firstChannel.val + (pos - s.windows[i].base - 1) / 2 →
    let held : State := { s with lowHalf := some { slot := pos - 1, ch, octet := low, good := g1 } }
    let bare : State := { s with lowHalf := none }
    let clash := raise 5 .none .none (some (unsignedFigure (256 + pos))) bare
    let incomplete (u : State) : State := raise 18 .none (.channel ch) (some (unsignedFigure pos)) u
    handOver (.sample code g2) pos held =
        processCode ch (BitVec.ofNat 16 (256 * (code.toNat % 256) + low.toNat)) (g1 && g2) bare ∧
      handOver .idle pos held = incomplete bare ∧ handOver .absent pos held = incomplete bare ∧
      handOver .wrongKind pos held = incomplete clash ∧ handOver (.sample code g2) pos bare = incomplete bare ∧
      handOver .idle pos bare = bare ∧ handOver .absent pos bare = bare ∧ handOver .wrongKind pos bare = clash

/-- A code of BAD node quality makes a LIVE or STALE channel INVALID with its value held: code and stamp are
recorded, quiet goes to 0, CHANNEL_INVALID is pending afterwards, and no other channel changes. A channel
already INVALID only records the code; an EMPTY channel ignores it, and a forced channel keeps state and value
(R31, R32). The loss of a LIVE channel with one reader: a limit clears its run of counts (R60); a section is held
by the loss of its status (R77), and takes section_blind for its heatsink (R82); the yaw sets the reanchor mark and,
moving, goes to HELD with HEADING_INVALID (R110), and ends a slew for its vane (R121); the cooling unit takes
cooling_blind for T_in (R140), and for each of its three inputs an unknown margin (R144), the heater ON (R145) and the
loss of a true dry permissive with DRY_LOST (R146). -/
def Obligations.BadCodeInvalidatesChannel : Prop :=
  ∀ (s : State) (ch : Fin 128) (code : Half),
    let x := s.channels[ch]
    let seen := { x with lastCode := code, stamp := s.ring.extCount, quiet := 0, gotCode := true }
    let t := processCode ch code false s
    (x.configured = false → t = s) ∧
    (x.configured = true → x.forced = true → t = { s with channels := s.channels.set ch seen }) ∧
    (x.configured = true → x.forced = false → x.state = .invalid →
      t = { s with channels := s.channels.set ch seen }) ∧
    (x.configured = true → x.forced = false → x.state ≠ .invalid →
      t.channels = s.channels.set ch { seen with state := .invalid } ∧ t.causes[17].pending = true ∧
        t.ring = s.ring) ∧
    (x.configured = true → x.forced = false → x.state = .live →
      let rises (u : State) : State := { u with
        channels := t.channels, causes := t.causes, reports := t.reports, choices := t.choices
        choiceNo := t.choiceNo }
      (∀ j : Fin 96, readersOf s ch = [.limit j] → s.limits[j].level ≠ .unbound →
        t = rises { s with limits := s.limits.set j { s.limits[j] with
          counter := 0
          target := match s.limits[j].level with | .warn => .warn | .trip => .trip | _ => .clear } }) ∧
      (∀ j : Fin 6, readersOf s ch = [.heatsink j] → t.causes[35].pending = true ∧
        t = rises { s with sects := s.sects.set j { s.sects[j] with
          thermal := s.power.sectionBlind, blind := true, curveFallback := false } }) ∧
      (∀ j : Fin 6, readersOf s ch = [.status j] →
        (s.sects[j].state = .online → t.causes[34].pending = true ∧
          t = rises { s with sects := s.sects.set j { s.sects[j] with state := .held } }) ∧
        (s.sects[j].state ≠ .online → t = rises s)) ∧
      (readersOf s ch = [.heading] →
        let moving : Prop := s.yaw.mode = .releasing ∨ s.yaw.mode = .slewing ∨ s.yaw.mode = .unwinding ∨
          s.yaw.mode = .jogging
        (moving → t.yaw.mode = .held ∧ t.yaw.reanchor = true ∧ t.yaw.headingLost = true ∧
          t.yaw.twist = s.yaw.twist ∧ t.lines = { s.lines with brakeHold := true } ∧ t.causes[51].pending = true ∧
          t = rises { s with yaw := t.yaw, lines := t.lines }) ∧
        (¬ moving → t = rises { s with yaw := { s.yaw with reanchor := true } })) ∧
      (readersOf s ch = [.vane] →
        (s.yaw.mode = .slewing → t = rises { s with
          yaw := { s.yaw with mode := .stopping, groupB := false, coastCount := 0 }
          lines := { s.lines with brakeHold := false } }) ∧
        (s.yaw.mode ≠ .slewing → t = rises s)) ∧
      (readersOf s ch = [.cooling] →
        let running := ((List.finRange 3).filter fun k => s.pumps[k].state = .running).length
        t.cool.margin = none ∧ t.cool.heater = true ∧ t.cool.dry = false ∧
        (s.cool.dry = true → s.cool.beenDry = true → t.causes[67].pending = true) ∧
        (ch = s.coolCfg.tin → t.cool.coolantFactor = s.coolCfg.blind ∧ t.cool.blindMark = true ∧
          t.cool.factor = min s.coolCfg.blind (s.coolCfg.pumpFactor.toList.getD running 0) ∧
          t.causes[66].pending = true) ∧
        (ch ≠ s.coolCfg.tin → t.cool.coolantFactor = s.cool.coolantFactor ∧ t.cool.factor = s.cool.factor) ∧
        t.cool.commanded = s.cool.commanded ∧ t = rises { s with cool := t.cool }))

/-! ### Round closes and the ring states -/

/-- The tail of the round out closes it, whether it passes its check or not: it is forwarded, the round out is
cleared, the extended round count advances by one, the lapse counter goes to 0, and a return under a break condition
counts and ends the condition at 16. In REJOINING with the rejoin counter at 16 or more the close also returns the
ring to FOLLOWING, with the counter at 0 and the tower-loss timer at the last accepted head. The tail is first handled
as the cell of its slot. After the ring's part the five blocks that count and judge at closes do their close work,
each once, in an order that the manual leaves open (R10, R12, R14, R17, R94). That the ring's part comes first and
each block's work is taken whole is the model's reading (log 22, log 2). What each block's work is stands with the
blocks: the channels at CHANNEL_STALE, the dispatch unit at SETPOINT_LOSS, the sections at the sharing of the ceiling,
the yaw unit with the ends of its movements, and the cooling unit with its counts. -/
def Obligations.ReturnedTailClosesRound : Prop :=
  ∀ (c : Cell) (s : State) (o : RoundOut), Returning s o o.last → 9 ≤ o.last →
    let n := s.ring.returns + 1
    let back : Bool := decide (s.ring.mode = .rejoining ∧ 16 ≤ s.ring.rejoin)
    let ring : Ring := { s.ring with
      mode := if back then .following else s.ring.mode
      rejoin := if back then 0 else s.ring.rejoin
      towerTimer := if back then (s.ring.lastHead.map (·.time)).getD s.ring.towerTimer
        else s.ring.towerTimer
      roundOut := none, extCount := s.ring.extCount + 1, lapses := 0
      towerOut := s.ring.towerOut ++ [c]
      broken := s.ring.broken && decide (n < 16)
      returns := if s.ring.broken then (if n < 16 then n else 0) else s.ring.returns }
    let tail : State := { checked 1 c o.last s with
      ring := { s.ring with roundOut := some { o with nextPos := o.last + 1 } } }
    ∃ t arrived, exec (.roundClose c) s = .next t ∧ t.reply = none ∧ t.reports.delivering = false ∧ t.ring = ring ∧
      ((∀ k : Fin 16, s.plan[k].enable = true → s.plan[k].slot ≠ o.last) → arrived = handOver
        (if cellPasses c o.last = false then .absent
          else if c.kind = Kind.sample then .sample (c.payload.extractLsb' 0 16) (decide (c.ext = 1))
          else if c.kind = Kind.idle then .idle else .wrongKind) o.last tail) ∧
      (∀ k : Fin 16, s.plan[k].enable = true → s.plan[k].slot = o.last → arrived =
        if cellPasses c o.last = true ∧ c.kind ≠ Kind.command then
          raise 5 .none .none (some (unsignedFigure (256 + o.last))) tail else tail) ∧
      ∃ (order : List Block) (choices : List Nat) (choiceNo : Nat),
        order.Perm [.channels, .sections, .power, .yaw, .cooling] ∧
        t = order.foldl (fun v b => blockClose b v) { arrived with
          ring := ring, reply := none, reports := { arrived.reports with delivering := false }
          choices := choices, choiceNo := choiceNo }

/-- The lapse timeout of the round out closes it as a lapse: ROUND_LAPSE is pending afterwards, the extended
round count and the lapse counter advance by one, the return count goes to 0, the round out is cleared, and the
third lapse in a row begins the node-ring break. In REJOINING with the rejoin counter at 16 or more the close also
returns the ring to FOLLOWING, with the counter at 0 and the tower-loss timer at the last accepted head. After the
ring's part the blocks do their close work, each once, as at a close by return, and the start of the break stands among
them when it is due (R13, R14, R17, R18, R94); the order is open, and the readings of log 22 and log 2 apply. Before
the timeout nothing happens. -/
def Obligations.LapsedRoundCountsAndRaises : Prop :=
  ∀ (now : Nat) (s : State) (o : RoundOut), s.ring.roundOut = some o →
    let back : Bool := decide (s.ring.mode = .rejoining ∧ 16 ≤ s.ring.rejoin)
    let due : Bool := decide (3 ≤ s.ring.lapses + 1) && !s.ring.broken
    let counted : Ring := { s.ring with
      mode := if back then .following else s.ring.mode
      rejoin := if back then 0 else s.ring.rejoin
      towerTimer := if back then (s.ring.lastHead.map (·.time)).getD s.ring.towerTimer
        else s.ring.towerTimer
      roundOut := none, extCount := s.ring.extCount + 1, lapses := s.ring.lapses + 1, returns := 0 }
    (o.openedAt + 2 * estimateNow s ≤ now →
      ∃ t, exec (.roundLapse now) s = .next t ∧ t.causes[4].pending = true ∧ t.reply = none ∧
        t.ring = { counted with broken := s.ring.broken || decide (3 ≤ s.ring.lapses + 1) } ∧
        ∃ (order : List Block) (choices : List Nat) (choiceNo : Nat),
          order.Perm ([.channels, .sections, .power, .yaw, .cooling] ++ if due then [.ringBreak] else []) ∧
          t = order.foldl (fun v b => blockClose b v) (raise 4 .none .none
            (some (unsignedFigure (if o.headReturned then o.nextPos - 1 else 0))) { s with
              ring := counted, reply := none, reports := { s.reports with delivering := false }
              choices := choices, choiceNo := choiceNo })) ∧
    (now < o.openedAt + 2 * estimateNow s → exec (.roundLapse now) s = .next s)

/-- The lapse counter at 3 begins the node-ring break, in every nacelle state and every yaw state: RING_BREAK rises,
run_enable is OFF with altered set if it was ON, an OPERATING nacelle is STOPPED with reason RING_BREAK and
STOP_OUT asserted, ONLINE sections are HELD, and the yaw, unless it is HELD already, goes to HELD with BRAKE_HOLD
asserted, its marks off, its counts at 0 and F_y at the saved factor if the unwind mark was on. The return count
at 16 ends the condition and changes nothing else. The start that a lapse brings among the blocks' close work is this
command's (R14, R81, R115, R124, R167, R172). -/
def Obligations.RingBreakStopsNacelle : Prop :=
  (∀ v : State, blockClose .ringBreak v = stateAfter .ringBreak v) ∧
  (∀ s : State, s.ring.broken = false → 3 ≤ s.ring.lapses →
    let stops : Bool := decide (s.sup.nacelle = .operating)
    let rests : Bool := decide (s.yaw.mode = .held)
    exec .ringBreak s = .next { raise 1 .nacelleStop .none (some (unsignedFigure s.ring.lapses)) s with
      ring := { s.ring with broken := true }
      sup := {
        nacelle := if stops then .stopped else s.sup.nacelle
        reason := if stops then .cause 1 else s.sup.reason
        mode := { s.sup.mode with runEnable := false, altered := s.sup.mode.altered || s.sup.mode.runEnable } }
      sects := s.sects.map fun x => if x.state = .online then { x with state := .held } else x
      lines := { s.lines with
        stopOut := if stops then true else s.lines.stopOut
        brakeHold := if rests then s.lines.brakeHold else true }
      yaw := if rests then s.yaw else { s.yaw with
        mode := .held, endMark := false, unwindMark := false
        factor := if s.yaw.unwindMark then s.yaw.saved else s.yaw.factor
        groupB := false, releaseCount := 0, staggerCount := 0, slewCount := 0, stallCount := 0
        coastCount := 0, brakeCount := 0, idleCount := 0, waitCount := 0 } }) ∧
  ∀ s : State, s.ring.broken = true → 16 ≤ s.ring.returns →
    exec .ringBreakEnd s = .next { s with ring := { s.ring with broken := false, returns := 0 } }

/-- 8 × the estimate without a tower head in FOLLOWING takes the ring to ISLAND: TOWER_LOSS is raised with the
estimate, and an island round opens, its head one above the head that last left and its last slot that of the
last accepted head, or 0 and 255; it carries its head and one cell for each slot: IDLE in slots 1 to 8 and in every
node slot that no enabled command-plan entry names, and in a plan slot the COMMAND cell with the value and flags of the
entry's object. The later island rounds open in the same way when they fall due. Stated with no round out (R9, R15,
R16). From when the next round falls due, and
that all its cells leave in the opening step with the values of the opening, are the model's (log 17, log 18). -/
def Obligations.TowerLossOpensIslandRounds : Prop :=
  ∀ (now : Nat) (s : State), s.ring.roundOut = none →
    let number : Half := match s.ring.lastHeadOut with | some n => n + 1 | none => 0
    let last := match s.ring.lastHead with | some h => h.last | none => 255
    ∃ cells : List Cell, cells.length = last ∧
    (∀ n : Nat, n < last →
      (n + 1 ≤ 8 ∨ (∀ k : Fin 16, s.plan[k].enable = true → s.plan[k].slot ≠ n + 1) →
        cells[n]? = some (idleCell (n + 1))) ∧
      ∀ k : Fin 16, 9 ≤ n + 1 → s.plan[k].enable = true → s.plan[k].slot = n + 1 →
        (∀ j : Fin 16, s.plan[j].enable = true → s.plan[j].slot = n + 1 → j = k) →
        ObjectLeaves s s.plan[k].object fun value flags => cells[n]? = some
          (writeCell Kind.command 0 (n + 1) (BitVec.ofNat 32 value) (BitVec.ofNat 8 flags))) ∧
    let opened (u : State) : State := { u with ring := { s.ring with
      mode := u.ring.mode
      nodeOut := s.ring.nodeOut ++ headCell .nacelle number last :: cells
      lastHeadOut := some number
      islandDue := now + s.ring.islandPeriod
      roundOut := some { number, originator := .nacelle, last, openedAt := now,
                         headReturned := false, nextPos := 0 } } }
    (s.ring.mode = .following → s.ring.towerTimer + 8 * estimateNow s ≤ now →
      exec (.towerLoss now) s = .next (opened (raise 0 .none .none (some (unsignedFigure (estimateNow s)))
        { s with ring := { s.ring with mode := .island } }))) ∧
    (s.ring.mode ≠ .following → s.ring.islandDue ≤ now → exec (.islandRound now) s = .next (opened s))

/-- 8 × the estimate without a tower head in REJOINING returns the ring to ISLAND with the rejoin counter at 0; the
counter at 16 or more once the island round has closed returns it to FOLLOWING with the counter at 0 and the
tower-loss timer at the last accepted head (R17). -/
def Obligations.RejoiningEndsOrTimesOut : Prop :=
  (∀ (now : Nat) (s : State), s.ring.mode = .rejoining → s.ring.towerTimer + 8 * estimateNow s ≤ now →
    exec (.rejoinTimeout now) s = .next { s with ring := { s.ring with mode := .island, rejoin := 0 } }) ∧
  ∀ (s : State) (h : LastHead), s.ring.mode = .rejoining → 16 ≤ s.ring.rejoin → s.ring.roundOut = none →
    s.ring.lastHead = some h →
    exec .rejoinComplete s = .next { s with ring := { s.ring with
      mode := .following, rejoin := 0, towerTimer := h.time } }

/-! ### Counts that reach their setting -/

/-- A LIVE channel, configured and not forced, whose quiet count has reached stale_rounds becomes STALE with its
value held; CHANNEL_STALE is pending afterwards and no other channel changes. Below stale_rounds nothing
happens. At a close a held low half is discarded with PAIR_INCOMPLETE and its even slot, the quiet count of every
channel that got no code advances, stopping at 65,535, and each channel whose count has reached stale_rounds becomes
STALE; the order of these is open (R28, R37). -/
def Obligations.QuietChannelGoesStale : Prop :=
  (∀ (s : State) (ch : Fin 128),
    let x := s.channels[ch]
    x.configured = true → x.forced = false → x.state = .live →
    (x.staleRounds ≤ x.quiet → ∃ t, exec (.channelStale ch) s = .next t ∧
      t.channels = s.channels.set ch { x with state := .stale } ∧ t.causes[16].pending = true ∧
      t.ring = s.ring ∧ t.power = s.power ∧ t.sup = s.sup) ∧
    (x.quiet < x.staleRounds → exec (.channelStale ch) s = .next s)) ∧
  ∀ v : State,
    let counted : State := { v with channels := v.channels.map fun x => { x with
      quiet := if x.configured && !x.forced && !x.gotCode then min (x.quiet + 1) 65535 else x.quiet
      gotCode := false } }
    let half : List (State → State) := match v.lowHalf with
      | some h => [fun u =>
          raise 18 .none (.channel h.ch) (some (unsignedFigure h.slot)) { u with lowHalf := none }]
      | none => []
    let stale := (List.finRange 128).filter fun ch =>
      let x := counted.channels[ch]
      x.configured && !x.forced && decide (x.state = .live) && decide (x.staleRounds ≤ x.quiet)
    ∃ (steps : List (State → State)) (choices : List Nat) (choiceNo : Nat),
      steps.Perm (half ++ stale.map fun ch => stateAfter (.channelStale ch)) ∧
      blockClose .channels v =
        steps.foldl (fun u f => f u) { counted with choices := choices, choiceNo := choiceNo }

/-- A decimation tick joins the vane's misalignment, or INVALID, to the window, which keeps its newest 64
entries, and judges it: VALID with at least min_valid valid entries, FILLING with fewer than min_valid entries,
BLIND otherwise. With the unwind mark off a VALID window sets F_y to the answer of MISALIGN at |mean|, or to
yaw_blind while that curve is unset, a BLIND one sets it to yaw_blind, and a FILLING one leaves it; with the mark
on F_y is left (R50). In PARKED the tick then counts toward a start: with yaw_auto ON, the yaw permitted, the
judgement VALID and |mean| at start_misalign or above, the start count advances while the mean keeps its sign and
restarts at 1 when it changes, and it goes to 0 otherwise; at start_ticks the automatic start is taken. In every other
yaw state the tick starts nothing. Below yaw_decim there is no tick (R113, R114, R115, R116, R118). -/
def Obligations.DecimationTickJudgesWindow : Prop :=
  (∀ s : State, s.yaw.tickCount < s.yawCfg.yawDecim → exec .decimationTick s = .next s) ∧
  ∀ s : State, s.yawCfg.yawDecim ≤ s.yaw.tickCount →
    let entry : Option Int :=
      if s.channels[s.yawCfg.vane].state = .live then
        some (max (-1800) (min s.channels[s.yawCfg.vane].value 1799)) else none
    let w := (if s.yaw.window.length < 64 then s.yaw.window else s.yaw.window.tail) ++ [entry]
    let valid := w.filterMap id
    let mean := valid.sum.tdiv valid.length
    ∃ t : State,
      (s.yawCfg.minValid ≤ valid.length → t = { s with yaw := { s.yaw with
        window := w, tickCount := 0, judgement := .valid, mean := some mean
        factor := if s.yaw.unwindMark then s.yaw.factor else
          (evalCurve s.curves[CurveNo.misalign] mean.natAbs).getD s.yawCfg.yawBlind } }) ∧
      (valid.length < s.yawCfg.minValid → w.length < s.yawCfg.minValid → t = { s with yaw := { s.yaw with
        window := w, tickCount := 0, judgement := .filling, mean := none } }) ∧
      (valid.length < s.yawCfg.minValid → s.yawCfg.minValid ≤ w.length →
        t = raise 55 .none .none (some (unsignedFigure valid.length)) { s with yaw := { s.yaw with
          window := w, tickCount := 0, judgement := .blind, mean := none
          factor := if s.yaw.unwindMark then s.yaw.factor else s.yawCfg.yawBlind } }) ∧
      (s.yaw.mode ≠ .parked → exec .decimationTick s = .next t) ∧
      (s.yaw.mode = .parked →
        let permits : Prop := s.sup.nacelle = .operating ∨ s.sup.nacelle = .stopped ∧ s.sup.reason ≠ .cause 1 ∧
          ∀ c, s.sup.reason = .cause c → c.val / 16 ≠ 3
        let starts : Prop := s.sup.mode.yawAuto = true ∧ permits ∧ s.ring.broken = false ∧
          s.yaw.twistKnown = true ∧ s.channels[s.yawCfg.heading].state = .live ∧
          s.yawCfg.minValid ≤ valid.length ∧ s.yawCfg.startMisalign ≤ mean.natAbs
        let positive := decide (0 < mean)
        let counts (u : State) (n : Nat) : Prop :=
          (n < s.yawCfg.startTicks → exec .decimationTick s = .next u) ∧
          (s.yawCfg.startTicks ≤ n → exec .decimationTick s = exec .automaticStart u)
        (¬ starts → counts { t with yaw := { t.yaw with startCount := 0 } } 0) ∧
        (starts →
          let n := if s.yaw.startPositive = positive then s.yaw.startCount + 1 else 1
          counts { t with yaw := { t.yaw with startCount := n, startPositive := positive } } n))

/-- The start count reaching start_ticks in PARKED with the yaw permitted goes to 0 and takes a start in the mean's
direction: a release for a slew; an unwind wait, with F_y saved and at 0, when the direction increases |twist| at or
above unwind_threshold; and no start at all then while UNWIND_BLOCKED is pending. The yaw is permitted in OPERATING, or
STOPPED by a reason that is neither RING_BREAK nor a cause of group G3, outside a ring break, with twist known and the
heading channel usable. Without permission, outside PARKED, and below start_ticks nothing starts and nothing changes
(R116, R118, R125). That the readable phase is RELEASE in RELEASING is the model's choice (log 32), and so is that a row
sent alone without permission changes nothing (log 1). -/
def Obligations.AutomaticStartTurnsOrUnwinds : Prop :=
  ∀ s : State,
    let permits : Prop := s.sup.nacelle = .operating ∨ s.sup.nacelle = .stopped ∧ s.sup.reason ≠ .cause 1 ∧
      ∀ c, s.sup.reason = .cause c → c.val / 16 ≠ 3
    let permitted : Prop := permits ∧ s.ring.broken = false ∧ s.yaw.twistKnown = true ∧
      s.channels[s.yawCfg.heading].state = .live
    let due : Prop := s.yaw.mode = .parked ∧ s.yawCfg.startTicks ≤ s.yaw.startCount ∧ permitted
    let cw := s.yaw.startPositive
    let adds : Prop := (cw = true ∧ 0 ≤ s.yaw.twist) ∨ (cw = false ∧ s.yaw.twist ≤ 0)
    let wound := s.yawCfg.unwindThreshold ≤ s.yaw.twist.natAbs
    (¬ due → exec .automaticStart s = .next s) ∧
    (due → ¬ (adds ∧ wound) → exec .automaticStart s = .next { s with
      yaw := { s.yaw with
        mode := .releasing, phase := .release, turn := if cw then .cw else .ccw
        startCount := 0, releaseCount := 0 }
      lines := { s.lines with brakeHold := false } }) ∧
    (due → adds → wound → s.causes[54].pending = false → exec .automaticStart s = .next { s with
      yaw := { s.yaw with
        mode := .unwindWait, unwindMark := true, saved := s.yaw.factor, factor := 0
        startCount := 0, idleCount := 0, waitCount := 0 }
      lines := { s.lines with brakeHold := true } }) ∧
    (due → adds → wound → s.causes[54].pending = true →
      exec .automaticStart s = .next { s with yaw := { s.yaw with startCount := 0 } })

/-- A release that meets its condition enters its slew with group A on and the counts at 0: SLEWING from RELEASING,
the SLEW phase in UNWINDING and JOGGING. With the hard condition holding in a direction that increases |twist|, in
RELEASING with an unusable vane channel, and in UNWINDING with its target already met, it goes to STOPPING with no
motor on, the end mark set in the first case. The stagger count reaching stagger switches group B on in every slew
(R119, R120, R127). That the readable phase is SLEW in SLEWING is the model's choice (log 32). -/
def Obligations.ReleaseEndEntersSlew : Prop :=
  (∀ s : State,
    (s.yaw.mode = .releasing ∨ (s.yaw.mode = .unwinding ∨ s.yaw.mode = .jogging) ∧ s.yaw.phase = .release) →
    (s.yawCfg.releaseMode = .fixed ∧ s.yawCfg.releaseRounds ≤ s.yaw.releaseCount ∨
      s.yawCfg.releaseMode = .feedback ∧ s.yawCfg.releaseMin ≤ s.yaw.releaseCount ∧
        s.channels[s.yawCfg.brake].state = .live ∧ s.channels[s.yawCfg.brake].value = 1) →
    let hard : Prop := s.yawCfg.twistHard ≤ s.yaw.twist.natAbs ∧
      (s.yaw.turn = .cw ∧ 0 ≤ s.yaw.twist ∨ s.yaw.turn = .ccw ∧ s.yaw.twist ≤ 0)
    let blind : Prop := s.yaw.mode = .releasing ∧ s.channels[s.yawCfg.vane].state ≠ .live
    let met : Prop := s.yaw.mode = .unwinding ∧ s.yaw.twist.natAbs ≤ s.yawCfg.unwindTarget
    let slew : Yaw := { s.yaw with
      mode := if s.yaw.mode = .releasing then .slewing else s.yaw.mode
      phase := .slew, staggerCount := 0, slewCount := 0, stallCount := 0
      stallRef := s.yaw.twist, groupB := decide (s.yawCfg.stagger = 0) }
    let does (y : Yaw) : Prop :=
      exec .releaseEnd s = .next { s with lines := { s.lines with brakeHold := false }, yaw := y }
    (hard → does { s.yaw with mode := .stopping, groupB := false, coastCount := 0, endMark := true }) ∧
    (¬ hard → blind → does { s.yaw with mode := .stopping, groupB := false, coastCount := 0 }) ∧
    (¬ hard → met → does { slew with mode := .stopping, groupB := false, coastCount := 0 }) ∧
    (¬ hard → ¬ blind → ¬ met → does slew)) ∧
  ∀ s : State,
    (s.yaw.mode = .slewing ∨ (s.yaw.mode = .unwinding ∨ s.yaw.mode = .jogging) ∧ s.yaw.phase = .slew) →
    s.yawCfg.stagger ≤ s.yaw.staggerCount →
    exec .groupBStart s = .next { s with yaw := { s.yaw with groupB := true } }

/-- The faults of a movement: a release at release_max without an open brake raises BRAKE_STUCK and holds the yaw,
in RELEASING, UNWINDING and JOGGING; a stall window with too little advance raises YAW_STALL and stops to end in
HELD, and one with enough starts the next window, in every slew; max_slew in SLEWING raises YAW_OVERTIME and stops,
and elsewhere it does nothing (R115, R119, R122, R124). That the record of YAW_OVERTIME has no value while the anchor
is absent is the model's choice (log 31). -/
def Obligations.YawFaultsHoldOrStop : Prop :=
  (∀ s : State,
    (s.yaw.mode = .releasing ∨ (s.yaw.mode = .unwinding ∨ s.yaw.mode = .jogging) ∧ s.yaw.phase = .release) →
    s.yawCfg.releaseMode = .feedback → s.yawCfg.releaseMax ≤ s.yaw.releaseCount →
    ¬ (s.yawCfg.releaseMin ≤ s.yaw.releaseCount ∧
      s.channels[s.yawCfg.brake].state = .live ∧ s.channels[s.yawCfg.brake].value = 1) →
    exec .brakeStuck s = .next
      { raise 48 .yawHold .none (some (unsignedFigure s.yaw.releaseCount)) s with
        lines := { s.lines with brakeHold := true }
        yaw := { s.yaw with
          mode := .held, endMark := false, unwindMark := false
          factor := if s.yaw.unwindMark then s.yaw.saved else s.yaw.factor
          groupB := false, releaseCount := 0, staggerCount := 0, slewCount := 0, stallCount := 0
          coastCount := 0, brakeCount := 0, idleCount := 0, waitCount := 0 } }) ∧
  (∀ s : State,
    (s.yaw.mode = .slewing ∨ (s.yaw.mode = .unwinding ∨ s.yaw.mode = .jogging) ∧ s.yaw.phase = .slew) →
    s.yawCfg.stallWindow ≤ s.yaw.stallCount →
    let advance := if s.yaw.turn = .cw then s.yaw.twist - s.yaw.stallRef else s.yaw.stallRef - s.yaw.twist
    (advance < s.yawCfg.stallMin → exec .yawStall s = .next
      { raise 49 .yawHold .none (some (signedFigure advance)) s with
        lines := { s.lines with brakeHold := false }
        yaw := { s.yaw with mode := .stopping, groupB := false, coastCount := 0, endMark := true } }) ∧
    (s.yawCfg.stallMin ≤ advance → exec .yawStall s = .next
      { s with yaw := { s.yaw with stallRef := s.yaw.twist, stallCount := 0 } })) ∧
  (∀ s : State, s.yaw.mode = .slewing → s.yawCfg.maxSlew ≤ s.yaw.slewCount →
    exec .yawOvertime s = .next
      { raise 50 .none .none (s.yaw.anchor.map unsignedFigure) s with
        lines := { s.lines with brakeHold := false }
        yaw := { s.yaw with mode := .stopping, groupB := false, coastCount := 0 } }) ∧
  ∀ s : State, s.yaw.mode ≠ .slewing → exec .yawOvertime s = .next s

/-- The ends of a yaw movement: coast_rounds applies the brake; brake_rounds enters HELD with the end mark and PARKED
with the window emptied without it; idle_confirm enters UNWINDING toward zero twist; unwind_wait_max raises
UNWIND_BLOCKED and returns to PARKED with the saved factor; a jog's rounds end it in STOPPING. At a close the counts
of the present state advance by one and its ends and faults are tested, a close counting as idle while the yaw is
permitted, no power is issued and every ONLINE section's feedback lies within idle_band; the tick counter advances
after them (R113, R115, R119, R120, R122, R123, R126, R127, R128). That an unwind from a twist of exactly 0 takes CW
is the model's choice (log 30). -/
def Obligations.YawMovementEnds : Prop :=
  (∀ s : State, s.yaw.mode = .stopping → s.yawCfg.coastRounds ≤ s.yaw.coastCount →
    exec .coastEnd s = .next { s with
      yaw := { s.yaw with mode := .braking, brakeCount := 0 }
      lines := { s.lines with brakeHold := true } }) ∧
  (∀ s : State, s.yaw.mode = .braking → s.yawCfg.brakeRounds ≤ s.yaw.brakeCount →
    let f := if s.yaw.unwindMark then s.yaw.saved else s.yaw.factor
    (s.yaw.endMark = true → exec .brakeEnd s = .next { s with
      lines := { s.lines with brakeHold := true }
      yaw := { s.yaw with
        mode := .held, endMark := false, unwindMark := false, factor := f, groupB := false
        releaseCount := 0, staggerCount := 0, slewCount := 0, stallCount := 0, coastCount := 0
        brakeCount := 0, idleCount := 0, waitCount := 0 } }) ∧
    (s.yaw.endMark = false → exec .brakeEnd s = .next { s with
      lines := { s.lines with brakeHold := true }
      yaw := { s.yaw with
        mode := .parked, endMark := false, unwindMark := false, factor := f, startCount := 0
        window := [], judgement := .filling, mean := none } })) ∧
  (∀ s : State, s.yaw.mode = .unwindWait → s.yawCfg.idleConfirm ≤ s.yaw.idleCount →
    exec .idleConfirm s = .next { s with
      lines := { s.lines with brakeHold := false }
      yaw := { s.yaw with
        mode := .unwinding, phase := .release, releaseCount := 0
        turn := if 0 < s.yaw.twist then .ccw else .cw } }) ∧
  (∀ s : State, s.yaw.mode = .unwindWait → s.yaw.idleCount < s.yawCfg.idleConfirm →
    s.yawCfg.unwindWaitMax ≤ s.yaw.waitCount → s.yaw.unwindMark = true →
    exec .unwindBlocked s = .next
      { raise 54 .none .none (some (signedFigure (s.yaw.twist.tdiv 10))) s with
        lines := { s.lines with brakeHold := true }
        yaw := { s.yaw with
          mode := .parked, endMark := false, unwindMark := false, factor := s.yaw.saved
          startCount := 0 } }) ∧
  (∀ s : State, s.yaw.mode = .jogging → s.yaw.phase = .slew → s.yaw.jogRounds ≤ s.yaw.slewCount →
    exec .jogEnd s = .next { s with
      lines := { s.lines with brakeHold := false }
      yaw := { s.yaw with mode := .stopping, groupB := false, coastCount := 0 } }) ∧
  ∀ v : State,
    let y := v.yaw
    let moves (p : Phase) : Prop := (y.mode = .unwinding ∨ y.mode = .jogging) ∧ y.phase = p
    let ticks (w : State) : Prop := blockClose .yaw v =
      stateAfter .decimationTick { w with yaw := { w.yaw with tickCount := w.yaw.tickCount + 1 } }
    (y.mode = .releasing ∨ moves .release → ticks (stateAfter .brakeStuck (stateAfter .releaseEnd
      { v with yaw := { y with releaseCount := y.releaseCount + 1 } }))) ∧
    (y.mode = .slewing ∨ moves .slew → ticks (stateAfter .jogEnd (stateAfter .yawOvertime (stateAfter .yawStall
      (stateAfter .groupBStart { v with yaw := { y with
        staggerCount := y.staggerCount + 1, slewCount := y.slewCount + 1, stallCount := y.stallCount + 1 } }))))) ∧
    (y.mode = .stopping → ticks (stateAfter .coastEnd
      { v with yaw := { y with coastCount := y.coastCount + 1 } })) ∧
    (y.mode = .braking → ticks (stateAfter .brakeEnd
      { v with yaw := { y with brakeCount := y.brakeCount + 1 } })) ∧
    (y.mode = .unwindWait →
      let permits : Prop := v.sup.nacelle = .operating ∨ v.sup.nacelle = .stopped ∧ v.sup.reason ≠ .cause 1 ∧
        ∀ c, v.sup.reason = .cause c → c.val / 16 ≠ 3
      let idle : Prop := permits ∧ v.ring.broken = false ∧ y.twistKnown = true ∧
        v.channels[v.yawCfg.heading].state = .live ∧ v.power.issuedSum = 0 ∧
        ∀ i : Fin 6, v.sects[i].state = .online → v.channels[v.sects[i].feedback].state = .live ∧
          v.channels[v.sects[i].feedback].value.natAbs ≤ v.yawCfg.idleBand
      let waits (n : Nat) : Prop := ticks (stateAfter .unwindBlocked (stateAfter .idleConfirm
        { v with yaw := { y with idleCount := n, waitCount := y.waitCount + 1 } }))
      (idle → waits (y.idleCount + 1)) ∧ (¬ idle → waits 0)) ∧
    (y.mode = .parked ∨ y.mode = .held → ticks v)

/-- A STARTING pump at pump_start, and a RUNNING pump at pump_persist, becomes FAILED with its failure recorded and is
commanded OFF; PUMP_FAIL is pending; the order list holds exactly the present pumps that are not FAILED, and exactly
the pumps among its first n_req are commanded ON, so that the next pump of the list takes its place (R135, R136, R137,
R138). After that PUMPS_SHORT is judged and F_c is formed (R140). With PUMP_FAIL pending before, a pump that a write
had cleared of FAILED adds its record when no other pump is FAILED (R148), and any other adds none (R152); the choice
between the two rules is the model's (log 29). The records are stated with PUMPS_SHORT pending, where it adds none of
its own. -/
def Obligations.FailedPumpIsReplaced : Prop :=
  ∀ (s : State) (k : Fin 3), s.pumps[k].present = true →
    let alone : Prop := ∀ j : Fin 3, j ≠ k → s.pumps[j].present = true → s.pumps[j].state ≠ .failed
    let value (how : PumpFailure) : Option Half := some (if how = .flow then 1 else 0)
    let filed (how : PumpFailure) (u : State) : Prop :=
      (s.causes[64].pending = true → s.pumps[k].cleared = true → alone → u = if s.causes[64].reportEnable then
        fileRecord { cause := 64, stamp := s.ring.extCount, action := .none, subject := .pump k, value := value how } s
        else s) ∧
      (¬ (s.causes[64].pending = true ∧ s.pumps[k].cleared = true ∧ alone) →
        u = raise 64 .none (.pump k) (value how) s)
    let running (u : State) : Nat := ((List.finRange 3).filter fun j => u.pumps[j].state = .running).length
    let settled (u : State) : State :=
      let w := if running u < u.cool.required then
        raise 65 .none .none (some (unsignedFigure u.cool.required)) u else u
      { w with cool := { w.cool with
        factor := min w.cool.coolantFactor (w.coolCfg.pumpFactor.toList.getD (running w) 0) } }
    let failed (how : PumpFailure) (t : State) : Prop :=
      (∃ u, filed how u ∧ failPump k how s = reorderPumps { u with pumps := s.pumps.set k { s.pumps[k] with
        state := .failed, commanded := false, failure := how, cleared := false } }) ∧
        t = settled (failPump k how s) ∧
        t.pumps[k] = { s.pumps[k] with state := .failed, commanded := false, failure := how, cleared := false } ∧
        t.causes[64].pending = true ∧
        (∀ j : Fin 3, j ∈ t.cool.order ↔ t.pumps[j].present = true ∧ t.pumps[j].state ≠ .failed) ∧
        (∀ j : Fin 3, t.pumps[j].commanded = decide (j ∈ t.cool.order.take s.cool.required)) ∧
        t.cool.required = s.cool.required ∧
        (s.causes[64].pending = true → s.causes[65].pending = true → ¬ (s.pumps[k].cleared = true ∧ alone) →
          t.reports = s.reports) ∧
        (s.causes[64].pending = true → s.causes[65].pending = true → s.causes[64].reportEnable = true →
          s.reports.queue.length < 32 → s.pumps[k].cleared = true → alone → t.reports.queue = s.reports.queue ++ [
            { cause := 64, stamp := s.ring.extCount, action := .none, subject := .pump k, value := value how }]) ∧
        t = { s with pumps := t.pumps, cool := t.cool, causes := t.causes, reports := t.reports }
    (s.pumps[k].state = .starting → s.coolCfg.pumpStart ≤ s.pumps[k].startCount →
      ∃ t, exec (.pumpStartFail k) s = .next t ∧ failed .start t) ∧
    (s.pumps[k].state = .running → s.coolCfg.pumpPersist ≤ s.pumps[k].lowCount →
      ∃ t, exec (.pumpFlowFail k) s = .next t ∧ failed .flow t)

/-- The cooling unit's other counts: 240,000 RUNNING closes make a run minute, stopping at 4,294,967,295; an unusable
T_in forces the thermal stage to 4, and a usable one above its up threshold or below its down threshold counts;
fan_persist moves the thermal stage by one within 0..4; the wanted stage is manual_stage, or the larger of the thermal
stage and FAN_FF at q_I, capped at guard_cap while the guard applies, and fan_step moves the commanded stage one step
toward it; dry_confirm makes the permissive true and sets the been-dry mark. The cooling unit's close takes the pumps
first, then these in their order, with the step count and the dry count advancing, and tests the guard (R139, R141,
R142, R143, R146). -/
def Obligations.CoolingCountsAct : Prop :=
  (∀ (s : State) (k : Fin 3), s.pumps[k].state = .running → 240000 ≤ s.pumps[k].minuteCount →
    exec (.runMinute k) s = .next { s with pumps := s.pumps.set k { s.pumps[k] with
      minuteCount := 0
      runMinutes := if s.pumps[k].runMinutes < 4294967295 then s.pumps[k].runMinutes + 1
        else 4294967295 } }) ∧
  (∀ s : State,
    let x := s.channels[s.coolCfg.tin]
    let k := s.cool.thermal
    let up : Prop := ∃ j : Fin 4, k = j.val ∧ s.coolCfg.fanUp[j] < x.value
    let down : Prop := ∃ j : Fin 4, k = j.val + 1 ∧ x.value < s.coolCfg.fanDown[j]
    let counts (u d : Nat) : Prop := thermalCounts s = { s with cool := { s.cool with upCount := u, downCount := d } }
    (x.state ≠ .live → (coolingClose s).cool.thermal = 4 ∧
      thermalCounts s = { s with cool := { s.cool with thermal := 4, upCount := 0, downCount := 0 } }) ∧
    (x.state = .live → up → counts (s.cool.upCount + 1) 0) ∧
    (x.state = .live → ¬ up → down → counts 0 (s.cool.downCount + 1)) ∧
    (x.state = .live → ¬ up → ¬ down → counts 0 0)) ∧
  (∀ s : State, s.coolCfg.fanPersist ≤ s.cool.upCount → s.cool.thermal < 4 →
    exec .thermalStageStep s = .next { s with cool := { s.cool with
      thermal := s.cool.thermal + 1, upCount := 0, downCount := 0 } }) ∧
  (∀ s : State, s.cool.upCount < s.coolCfg.fanPersist → s.coolCfg.fanPersist ≤ s.cool.downCount →
    exec .thermalStageStep s = .next { s with cool := { s.cool with
      thermal := s.cool.thermal - 1, upCount := 0, downCount := 0 } }) ∧
  (∀ (s : State) (w : Nat),
    let x := s.channels[s.coolCfg.tin]
    let guarded : Prop := x.state = .live ∧ x.value < s.coolCfg.emergency ∧
      ∃ m, s.cool.margin = some m ∧ m < s.coolCfg.guard
    let free := if s.sup.mode.coolingManual then s.sup.mode.manualStage
      else max s.cool.thermal ((evalCurve s.curves[CurveNo.fanFf] (issuedFraction s)).getD 4)
    (guarded → w = min free s.coolCfg.guardCap) → (¬ guarded → w = free) →
    (s.cool.commanded ≠ w → s.coolCfg.fanStep ≤ s.cool.stepCount →
      exec .fanStep s = .next { s with cool := { s.cool with
        wanted := w, stepCount := 0
        commanded := if s.cool.commanded < w then s.cool.commanded + 1 else s.cool.commanded - 1 } }) ∧
    (s.cool.commanded = w ∨ s.cool.stepCount < s.coolCfg.fanStep →
      exec .fanStep s = .next { s with cool := { s.cool with wanted := w } })) ∧
  (∀ s : State, s.cool.dry = false → s.coolCfg.dryConfirm ≤ s.cool.dryCount →
    exec .dryConfirm s = .next { s with cool := { s.cool with dry := true, dryCount := 0, beenDry := true } }) ∧
  ∀ v staged u : State, staged = stateAfter .thermalStageStep (thermalCounts (pumpsAtClose v)) →
    u = stateAfter .fanStep { staged with cool := { staged.cool with
      stepCount := min (staged.cool.stepCount + 1) 65535 } } →
    let guarded : Prop := u.channels[u.coolCfg.tin].state = .live ∧
      u.channels[u.coolCfg.tin].value < u.coolCfg.emergency ∧ (∃ m, u.cool.margin = some m ∧ m < u.coolCfg.guard) ∧
      u.coolCfg.guardCap < u.cool.commanded
    let drying : Prop := u.cool.dry = false ∧ ∃ m, u.cool.margin = some m ∧ u.coolCfg.dryMargin ≤ m
    let does (w : State) : Prop :=
      let closes (n : Nat) : Prop :=
        blockClose .cooling v = stateAfter .dryConfirm { w with cool := { w.cool with dryCount := n } }
      (drying → closes (u.cool.dryCount + 1)) ∧ (¬ drying → closes 0)
    (guarded → does { u with cool := { u.cool with commanded := u.coolCfg.guardCap, stepCount := 0 } }) ∧
      (¬ guarded → does u)

/-! ### The local lines -/

/-- ESTOP_IN becoming asserted raises EXTERNAL_STOP in every nacelle state; an OPERATING nacelle is STOPPED with
that reason, STOP_OUT asserted and its ONLINE sections HELD, and the yaw keeps its state; in any other state
nothing else changes. Its becoming deasserted changes the line alone (R81, R124, R167, R168). -/
def Obligations.EstopLineStopsNacelle : Prop :=
  (∀ s : State, s.lines.estopIn = false → s.sup.nacelle = .operating →
    exec .estopAsserted s = .next
      { raise 6 .nacelleStop .none none s with
        lines := { s.lines with estopIn := true, stopOut := true }
        sup := { s.sup with nacelle := .stopped, reason := .cause 6 }
        sects := s.sects.map fun x => if x.state = .online then { x with state := .held } else x }) ∧
  (∀ s : State, s.lines.estopIn = false → s.sup.nacelle ≠ .operating →
    exec .estopAsserted s = .next
      { raise 6 .nacelleStop .none none s with lines := { s.lines with estopIn := true } }) ∧
  ∀ s : State, s.lines.estopIn = true →
    exec .estopDeasserted s = .next { s with lines := { s.lines with estopIn := false } }

/-- SERVICE_KEY changes its level and no other state. With the key off, a WRITE that claims SERVICE or FACTORY acts
at OPERATOR: one of a FACTORY field (nacelle_rating) and one of a SERVICE field (setpoint_hold, section_blind) are
refused REFUSED_AUTHORITY and change nothing. With the key on, both claims reach the SERVICE fields, and FACTORY
alone reaches nacelle_rating (R70, R89, R173, R176, R178, R181). -/
def Obligations.ServiceKeyCapsAuthority : Prop :=
  (∀ (on : Bool) (s : State),
    exec (.serviceKeyChange on) s = .next { s with lines := { s.lines with serviceKey := on } }) ∧
  ∀ (s : State) (r : ReqArgs), s.ring.mode = .following → r.claimed = 2 ∨ r.claimed = 3 → r.index = 0 →
    let reply (st : Status) (u : State) : State := { u with reply := some (
      { status := st, table := 9, index := 0, tag := r.tag, part := false, value := r.value
        field := r.field }) }
    let refused (i : Instr) : Prop := exec i s = .next (reply .refusedAuthority s)
    (s.lines.serviceKey = false →
      (r.field = 0 ∨ r.field = 1 → refused (.write 9 r)) ∧ (r.field = 3 → refused (.sectionBlindWrite r))) ∧
    (s.lines.serviceKey = true →
      (r.field = 0 → r.claimed = 2 → refused (.write 9 r)) ∧
      (r.field = 0 → r.claimed = 3 → r.value.toNat ≤ 30000 → exec (.write 9 r) s =
        .next (reply .ok { s with power := { s.power with rating := r.value.toNat } })) ∧
      (r.field = 1 → 1 ≤ r.value.toNat → r.value.toNat ≤ 65535 → exec (.write 9 r) s =
        .next (reply .ok { s with power := { s.power with setpointHold := r.value.toNat } })) ∧
      (r.field = 3 → r.value.toNat ≤ 256 → ∃ t, exec (.sectionBlindWrite r) s = .next (reply .ok t) ∧
        t.power = { s.power with sectionBlind := r.value.toNat } ∧ t = { s with power := t.power, sects := t.sects }))

/-! ### Requests -/

/-- A READ of a known table and field at an index in range is answered OK with the field's coded value and changes
nothing else; an unknown table or field is refused before an index outside the range (R177). The fields of the ring,
channel, converter, pump, cause and line tables follow in the order of R181, coded by R179, and an unassigned cause reads
UNASSIGNED and zeros (R177). That a line reads 1 when it is asserted or on is the model's (log 8). -/
def Obligations.ReadReturnsFieldUnchanged : Prop :=
  (∀ (s : State) (i : Nat),
    let r := s.ring
    let p := s.power
    tableWords s 1 i = [wordOfNat r.islandPeriod, wordOfNat (ringCode r.mode), wordOfNat (estimateNow s), r.extCount,
      wordOfNat r.lapses, wordOfNat r.returns, wordOfBool r.broken, wordOfNat r.rejoin] ∧
    tableWords s 9 i = [wordOfNat p.rating, wordOfNat p.setpointHold, wordOfNat p.setpointDecay,
      wordOfNat p.sectionBlind, wordOfNat p.rEff, wordOfNat p.quiet, wordOfBool p.loss, wordOfNat p.ceiling,
      wordOfNat (termCode p.term), wordOfNat p.tReq, wordOfNat p.tCool, wordOfNat p.tYaw, wordOfNat p.tLim,
      wordOfNat p.capSum, wordOfNat p.issuedSum] ∧
    tableWords s 16 i = [wordOfBool s.lines.stopOut, wordOfBool s.lines.brakeHold, wordOfBool s.lines.estopIn,
      wordOfBool s.lines.serviceKey, wordOfNat (nacelleCode s.sup.nacelle), wordOfNat (reasonCode s.sup.reason),
      forcedWord s 0, forcedWord s 1, forcedWord s 2, forcedWord s 3] ∧
    ∀ (k : Fin 4) (n : Fin 32) (ch : Fin 128), ch.val = 32 * k.val + n.val →
      (forcedWord s k.val).getLsbD n.val = s.channels[ch].forced) ∧
  (∀ (s : State) (i : Fin 128),
    let x := s.channels[i]
    let c := s.causes[i]
    let kept : List Word := [wordOfBool c.pending, wordOfBool c.summaryEnable, wordOfBool c.reportEnable,
      wordOfBool c.injected]
    tableWords s 3 i.val = [wordOfBool x.configured, wordOfNat (rawKindCode x.rawKind), wordOf x.offset,
      wordOf x.gain, wordOf x.clampLow, wordOf x.clampHigh, wordOfNat x.staleRounds,
      wordOfNat (chanStateCode x.state), wordOf x.value, x.lastCode.zeroExtend 32, x.stamp, wordOfNat x.quiet,
      wordOfBool x.forced] ∧
    (causeKind i = .level → tableWords s 14 i.val = 0 :: kept) ∧
    (causeKind i = .event → tableWords s 14 i.val = 1 :: kept) ∧
    (causeKind i = .unassigned → tableWords s 14 i.val = [2, 0, 0, 0, 0])) ∧
  (∀ (s : State) (k : Fin 3),
    let p := s.pumps[k]
    tableWords s 13 k.val = [wordOfBool p.present, wordOfNat p.flowChannel.val, wordOfNat p.runMinutes,
      wordOfNat (pumpStateCode p.state), wordOfBool p.commanded, wordOfNat p.startCount, wordOfNat p.lowCount,
      wordOfNat p.minuteCount, wordOfNat (pumpFailureCode p.failure)]) ∧
  ∀ (table : Octet) (r : ReqArgs) (s : State), ReachedAt .operator r s →
    let fields := tableFields table.toNat r.index.toNat
    let reply (st : Status) (v : Word) : State := { s with reply := some (
      { status := st, table, index := r.index, tag := r.tag, part := false, value := v, field := r.field }) }
    (fields.length ≤ r.field.toNat → exec (.read table r) s = .next (reply .refusedUnknown r.value)) ∧
    (r.field.toNat < fields.length → tableSize table.toNat ≤ r.index.toNat →
      exec (.read table r) s = .next (reply .refusedIndex r.value)) ∧
    (∀ v, r.field.toNat < fields.length → r.index.toNat < tableSize table.toNat →
      (tableWords s table.toNat r.index.toNat)[r.field.toNat]? = some v →
      exec (.read table r) s = .next (reply .ok v))

/-- A WRITE is checked in the order of R178, and the first check that fails decides the reply with nothing
written: unknown field, state, authority or read-only, index, enumerated value, structure. A write that passes
is answered OK, or ADJUSTED when its figure was clamped, with the figure as written (R178). The mode record,
table 15, is stated by its own statement.

What a taken write does: the island period is stored, and is the estimate itself while there is none (R5, R16). An
abscissa of a curve is taken when the active abscissas then rise, an ordinate always (R47). A field of the yaw
settings changes that field alone, and is refused for order of the thresholds or of the release bounds (R107); a
write of heading_channel drops the anchor and the reanchor mark (R109), and one of twist_hard that makes the hard
condition begin is a crossing, by the yaw's state; in OPERATING the stop has sent the yaw to HELD (R112, log 27). A
field of the cooling settings changes that field alone, and is refused for the orders of R131; a binding forms the
coolant factor and the margin, cooling_blind and the pump factors form F_c, and the guard, the heater and the dry
permissive are judged by the writes that name them (R140, R143, R144, R145, R146). That a guard which begins at such a
write leaves the readable wanted stage as it was until the next close is the model's reading (log 33). -/
def Obligations.WriteChecksInOrder : Prop :=
  (∀ (z : Int) (s : State), ∃ u, applyWrite 1 0 0 z s = some u ∧
    u = { s with ring := { s.ring with islandPeriod := z.toNat } } ∧
    estimateNow u = if s.ring.estimate = none then z.toNat else estimateNow s) ∧
  (∀ (k : Fin 5) (j : Fin 8) (z : Int) (s : State),
    let c := s.curves[k]
    let moved : Curve := { c with points := c.points.set j { c.points[j] with x := z } }
    let rising : Prop := ∀ a b : Fin 8, a < b → b.val < c.count → moved.points[a].x < moved.points[b].x
    (rising → applyWrite 6 k.val (1 + j.val) z s = some { s with curves := s.curves.set k moved }) ∧
    (¬ rising → applyWrite 6 k.val (1 + j.val) z s = none) ∧
    applyWrite 6 k.val (9 + j.val) z s = some { s with curves := s.curves.set k { c with
      points := c.points.set j { c.points[j] with y := z.toNat } } }) ∧
  (∀ (f : Nat) (z : Int) (s : State) (x : Field) (w : Word) (clamped : Bool),
    (tableFields 10 0)[f]? = some x → x.form.take w = some (z, clamped) →
    let y := s.yaw
    let c := yawWith s.yawCfg f z
    let t : State := { s with
      yawCfg := c, yaw := if f = 1 then { y with anchor := none, reanchor := false } else y }
    let sound : Prop := c.unwindTarget < c.unwindThreshold ∧ c.unwindThreshold ≤ c.twistHard ∧
      c.releaseMin ≤ c.releaseMax
    let hard (cfg : YawSettings) : Prop := cfg.twistHard ≤ y.twist.natAbs
    let slewing : Prop := y.mode = .slewing ∨ (y.mode = .unwinding ∨ y.mode = .jogging) ∧ y.phase = .slew
    let braking : Prop := y.mode = .stopping ∨ y.mode = .braking
    yawWords c = (yawWords s.yawCfg).set f (wordOf z) ∧ (¬ sound → applyWrite 10 0 f z s = none) ∧
    (sound → hard s.yawCfg ∨ ¬ hard c → applyWrite 10 0 f z s = some t) ∧
    (sound → ¬ hard s.yawCfg → hard c → ∃ u, applyWrite 10 0 f z s = some u ∧ f = 22 ∧
      u.causes[53].pending = true ∧ u.yaw.twist = y.twist ∧
      u.sup.mode = { s.sup.mode with yawAuto := false, altered := s.sup.mode.altered || s.sup.mode.yawAuto } ∧
      (s.sup.nacelle = .operating → u.sup.nacelle = .stopped ∧ u.sup.reason = .cause 53 ∧
        u.lines.stopOut = true ∧ u.yaw.mode = .held ∧
        u.sects = s.sects.map fun a => if a.state = .online then { a with state := .held } else a) ∧
      (s.sup.nacelle ≠ .operating → u.sup.nacelle = s.sup.nacelle ∧ u.sup.reason = s.sup.reason ∧
        u.sects = s.sects ∧ (slewing → u.yaw.mode = .stopping ∧ u.yaw.endMark = true) ∧
        (braking → u.yaw = { y with endMark := true }) ∧ (¬ slewing → ¬ braking → u.yaw.mode = .held)) ∧
      u = { t with
        yaw := u.yaw, sup := u.sup, lines := u.lines, sects := u.sects, causes := u.causes
        reports := u.reports })) ∧
  (∀ (f : Nat) (z : Int) (s : State) (x : Field) (w : Word) (clamped : Bool),
    (tableFields 12 0)[f]? = some x → x.form.take w = some (z, clamped) →
    let k := s.cool
    let c := coolWith s.coolCfg f z
    let t : State := { s with coolCfg := c }
    let cooled (k : Cool) : State := { t with cool := k }
    let sound : Prop := c.fanUp[0] < c.fanUp[1] ∧ c.fanUp[1] < c.fanUp[2] ∧ c.fanUp[2] < c.fanUp[3] ∧
      (∀ j : Fin 4, c.fanDown[j] < c.fanUp[j]) ∧ c.heatOn < c.heatOff ∧ c.dryLost < c.dryMargin
    let bound : Prop := f = 0 ∨ f = 1 ∨ f = 2
    let pumping := c.pumpFactor.toList.getD ((List.finRange 3).filter fun j => s.pumps[j].state = .running).length 0
    let tin := chanValue s c.tin
    let answer : Option Nat := tin.bind fun v => evalCurve s.curves[CurveNo.coolant] v
    let margin : Option Int :=
      if bound then
        match tin, chanValue s c.tcab, chanValue s c.rh with
        | some a, some b, some h => some (a - (b - (1000 - max 0 (min h 1000)) / 5))
        | _, _, _ => none
      else k.margin
    let guarded : Prop := ∃ m a, margin = some m ∧ tin = some a ∧ m < c.guard ∧ a < c.emergency
    let stage : Prop := guarded ∧ c.guardCap < k.commanded
    let heated : Bool := match margin with
      | none => true
      | some m => if m < c.heatOn then true else if c.heatOff < m then false else k.heater
    let stays : Prop := k.dry = false ∨ ∃ m, margin = some m ∧ c.dryLost ≤ m
    coolWords c k = (coolWords s.coolCfg k).set f (wordOf z) ∧ (¬ sound → applyWrite 12 0 f z s = none) ∧
    (sound → ∃ u, applyWrite 12 0 f z s = some u ∧
      (f = 3 → u = cooled (if k.blindMark = true ∨ k.fallbackMark = true then
        { k with coolantFactor := c.blind, factor := min c.blind pumping } else k)) ∧
      (4 ≤ f → f ≤ 7 → u = cooled { k with factor := min k.coolantFactor pumping }) ∧
      (21 ≤ f → f ≤ 23 → (stage → u = cooled { k with commanded := c.guardCap, stepCount := 0 }) ∧
        (¬ stage → u = t)) ∧
      (f = 24 ∨ f = 25 → u = cooled { k with heater := heated }) ∧
      (f = 28 → (stays → u = t) ∧ (¬ stays → u.cool = { k with dry := false } ∧
        u = { cooled u.cool with causes := u.causes, reports := u.reports })) ∧
      (8 ≤ f → f ≤ 20 ∨ f = 26 ∨ f = 27 → u = t) ∧
      (bound → u.cool.margin = margin ∧ u.cool.heater = heated ∧
        (stage → u.cool.commanded = c.guardCap ∧ u.cool.stepCount = 0) ∧
        (¬ stage → u.cool.commanded = k.commanded ∧ u.cool.stepCount = k.stepCount) ∧
        (stays → u.cool.dry = k.dry) ∧ (¬ stays → u.cool.dry = false) ∧
        (f ≠ 0 → u.cool.coolantFactor = k.coolantFactor ∧ u.cool.factor = k.factor ∧
          u.cool.blindMark = k.blindMark ∧ u.cool.fallbackMark = k.fallbackMark) ∧
        (f = 0 → u.cool.coolantFactor = answer.getD c.blind ∧ u.cool.factor = min u.cool.coolantFactor pumping ∧
          u.cool.blindMark = tin.isNone ∧ u.cool.fallbackMark = (tin.isSome && answer.isNone) ∧
          (tin = none → u.causes[66].pending = true)) ∧
        u = { cooled u.cool with causes := u.causes, reports := u.reports }) ∧
      (¬ stays → k.beenDry = true → bound ∨ f = 28 → u.causes[67].pending = true))) ∧
  ∀ (table : Octet) (r : ReqArgs) (s : State) (a : Authority), s.ring.mode = .following →
    claimedAuthority r.claimed = some a → table ≠ 15 →
    let t := table.toNat
    let i := r.index.toNat
    let reply (u : State) (st : Status) (v : Word) : State := { u with reply := some (
      { status := st, table, index := r.index, tag := r.tag, part := false, value := v, field := r.field }) }
    let refused (st : Status) : Prop := exec (.write table r) s = .next (reply s st r.value)
    ((tableFields t i)[r.field.toNat]? = none → refused .refusedUnknown) ∧
    ∀ x, (tableFields t i)[r.field.toNat]? = some x →
      let reached := x.form ≠ .readOnly ∧ (effectiveAuthority s.lines.serviceKey a).reaches x.level = true
      let indexed := i < tableSize t ∧ (t = 14 → causeKind (Fin.ofNat 128 i) ≠ .unassigned)
      (x.when.allows s = false → refused .refusedState) ∧
      (x.when.allows s = true → ¬ reached → refused .refusedAuthority) ∧
      (x.when.allows s = true → reached → ¬ indexed → refused .refusedIndex) ∧
      (x.when.allows s = true → reached → indexed → x.form.take r.value = none → refused .refusedValue) ∧
      ∀ z clamped, x.when.allows s = true → reached → indexed →
        x.form.take r.value = some (z, clamped) →
        (applyWrite t i r.field.toNat z s = none → refused .refusedConflict) ∧
        ∀ u, applyWrite t i r.field.toNat z s = some u →
          exec (.write table r) s = .next (reply u (if clamped then .adjusted else .ok) (wordOf z))

/-- A write of the mode record is taken in every nacelle state: run_enable, yaw_auto and report_hold are applied at
every authority; cooling_manual and manual_stage, clamped to 4, at SERVICE; altered goes OFF. The reply is
ADJUSTED for an applied clamp, and PARTIAL when a field was left that the write asked to change (R180). -/
def Obligations.ModeWriteAppliesByAuthority : Prop :=
  ∀ (r : ReqArgs) (s : State), r.field = 0 → r.index = 0 →
    let stage := r.value.toNat / 16 % 16
    let m : Mode := { s.sup.mode with
      runEnable := r.value.getLsbD 0, yawAuto := r.value.getLsbD 1, reportHold := r.value.getLsbD 2
      altered := false }
    let done (n : Mode) (st : Status) (part : Bool) : Prop :=
      exec (.modeWrite r) s = .next { s with
        sup := { s.sup with mode := n }
        reply := some { status := st, table := 15, index := 0, tag := r.tag, part
                        value := modeWord n, field := 0 } }
    (ReachedAt .service r s → done
      { m with coolingManual := r.value.getLsbD 3, manualStage := if stage ≤ 4 then stage else 4 }
      (if stage ≤ 4 then .ok else .adjusted) false) ∧
    (ReachedAt .operator r s → ¬ ReachedAt .service r s →
      done m .ok (decide (r.value.getLsbD 3 ≠ s.sup.mode.coolingManual ∨ stage ≠ s.sup.mode.manualStage)))

/-- A structural write to the slot map that leaves its window enabled, and a write to the command plan that leaves its
entry enabled, is taken when the checks hold and refused REFUSED_CONFLICT with nothing written when one fails;
writes that leave the window or entry disabled meet the range checks alone. Stated for field 0, the enable
(R23, R182). -/
def Obligations.SlotMapAndPlanWritesCheckConflicts : Prop :=
  ∀ (r : ReqArgs) (s : State), ReachedAt .service r s → s.sup.nacelle ≠ .operating → r.field = 0 →
    r.value.toNat < 2 →
    let reply (table : Octet) (u : State) (st : Status) : State := { u with reply := some (
      { status := st, table, index := r.index, tag := r.tag, part := false, value := r.value, field := 0 }) }
    (∀ i : Fin 32, r.index.toNat = i.val →
      let w : Window := { s.windows[i] with enable := decide (r.value = 1) }
      let fits : Prop := w.base % w.size = 0 ∧ (w.width = .narrow → 2 ≤ w.size) ∧
        w.firstChannel.val + w.size / (if w.width = .wide then 1 else 2) ≤ 128 ∧
        ∀ k : Fin 16, s.plan[k].enable = true →
          ¬ (w.base ≤ s.plan[k].slot ∧ s.plan[k].slot < w.base + w.size)
      ((r.value = 1 → fits) → exec (.slotMapWrite r) s =
        .next (reply 2 { s with windows := s.windows.set i w } .ok)) ∧
      (r.value = 1 → ¬ fits → exec (.slotMapWrite r) s = .next (reply 2 s .refusedConflict))) ∧
    ∀ k : Fin 16, r.index.toNat = k.val →
      let p : PlanEntry := { s.plan[k] with enable := decide (r.value = 1) }
      let fits : Prop := (∀ j : Fin 16, j ≠ k → s.plan[j].enable = true →
          s.plan[j].slot ≠ p.slot ∧ s.plan[j].object ≠ p.object) ∧
        ∀ i : Fin 32, s.windows[i].enable = true →
          ¬ (s.windows[i].base ≤ p.slot ∧ p.slot < s.windows[i].base + s.windows[i].size)
      ((r.value = 1 → fits) → exec (.commandPlanWrite r) s =
        .next (reply 7 { s with plan := s.plan.set k p } .ok)) ∧
      (r.value = 1 → ¬ fits → exec (.commandPlanWrite r) s = .next (reply 7 s .refusedConflict))

/-- A taken offset, gain, clamp or remap count write to a CONFIGURED channel makes it STALE with its value held,
quiet 0 and the force removed; CHANNEL_STALE is pending afterwards unless the channel was STALE already, and no
other channel changes. A write of definition EMPTY makes it EMPTY with value 0. Offset, gain and definition are
taken outside OPERATING and refused REFUSED_STATE in it; the clamp bounds and a remap count of 0 are taken in every
state, but a bound that would pass the other is refused REFUSED_CONFLICT (R39, R41). -/
def Obligations.ChannelConfigWriteMakesStale : Prop :=
  ∀ (r : ReqArgs) (s : State) (ch : Fin 128), ReachedAt .service r s → r.index.toNat = ch.val →
    s.channels[ch].configured = true →
    let x := s.channels[ch]
    let z := r.value.toInt
    let inHalf : Prop := -32768 ≤ z ∧ z ≤ 32767
    let reply (remap : Bool) (st : Status) : Reply :=
      { status := st, table := if remap then 4 else 3, index := r.index, tag := r.tag, part := false
        value := r.value, field := r.field }
    let done (remap : Bool) (y : Channel) (t : State) : Prop :=
      exec (.channelConfigWrite remap r) s = .next t ∧ t.channels = s.channels.set ch y ∧
        t.ring = s.ring ∧ t.power = s.power ∧ t.sup = s.sup ∧ t.reply = some (reply remap .ok)
    let staled (remap : Bool) (y : Channel) : Prop := ∃ t,
      done remap { y with state := .stale, quiet := 0, forced := false } t ∧
        (x.state ≠ .stale → t.causes[16].pending = true)
    let refused (st : Status) : Prop :=
      exec (.channelConfigWrite false r) s = .next { s with reply := some (reply false st) }
    (s.sup.nacelle ≠ .operating → inHalf →
      (r.field = 2 → staled false { x with offset := z }) ∧ (r.field = 3 → staled false { x with gain := z })) ∧
    (s.sup.nacelle ≠ .operating → r.field = 0 → r.value = 0 →
      ∃ t, done false { x with configured := false, state := .empty, value := 0, forced := false } t) ∧
    (s.sup.nacelle = .operating → r.field = 0 ∨ r.field = 2 ∨ r.field = 3 → refused .refusedState) ∧
    (inHalf →
      (r.field = 4 → z ≤ x.clampHigh → staled false { x with clampLow := z }) ∧
      (r.field = 4 → x.clampHigh < z → refused .refusedConflict) ∧
      (r.field = 5 → x.clampLow ≤ z → staled false { x with clampHigh := z }) ∧
      (r.field = 5 → z < x.clampLow → refused .refusedConflict)) ∧
    (r.field = 0 → r.value = 0 → staled true { x with remapCount := 0 })

/-- A curve count write is clamped to 8 and answered ADJUSTED above it; it is taken when the points that become
active have strictly ascending abscissas, and otherwise refused REFUSED_CONFLICT; the points keep their values
(R48). That figures of 2³¹ and above are clamped as unsigned ones is the model's reading (log 20). -/
def Obligations.CurveCountWriteChecksOrder : Prop :=
  ∀ (r : ReqArgs) (s : State) (i : Fin 5), ReachedAt .service r s → r.index.toNat = i.val →
    let n := min r.value.toNat 8
    let rising : Prop := ∀ j k : Fin 8, j < k → k.val < n →
      s.curves[i].points[j].x < s.curves[i].points[k].x
    let reply (u : State) (st : Status) (v : Word) : State := { u with reply := some (
      { status := st, table := 6, index := r.index, tag := r.tag, part := false, value := v, field := 0 }) }
    (rising → exec (.curveCountWrite r) s = .next (reply
      { s with curves := s.curves.set i { s.curves[i] with count := n } }
      (if r.value.toNat ≤ 8 then .ok else .adjusted) (BitVec.ofNat 32 n))) ∧
    (¬ rising → exec (.curveCountWrite r) s = .next (reply s .refusedConflict r.value))

/-- Enabling a disabled limit whose levels stand in order arms it: CLEAR with target CLEAR, counter 0 and no last
value on a CONFIGURED channel, UNBOUND with LIMIT_UNBOUND pending on an EMPTY one; levels out of order are
refused REFUSED_CONFLICT. Disabling an enabled limit clears its runtime. A trip level written to an enabled
limit keeps its level and sets the counter to 0 (R52, R61, R66, R67). -/
def Obligations.LimitWriteArmsOrRetunes : Prop :=
  ∀ (r : ReqArgs) (s : State) (i : Fin 96), r.index.toNat = i.val →
    let l := s.limits[i]
    let bare : Limit := { l with target := .clear, counter := 0, lastValue := none }
    let reply (u : State) (st : Status) : State := { u with reply := some (
      { status := st, table := 5, index := r.index, tag := r.tag, part := false, value := r.value
        field := r.field }) }
    let ordered : Prop := (l.direction = .high → l.warn ≤ l.trip) ∧ (l.direction = .low → l.trip ≤ l.warn)
    (ReachedAt .service r s → s.sup.nacelle ≠ .operating → r.field = 0 → r.value = 1 → l.enable = false →
      (¬ ordered → exec (.limitWrite r) s = .next (reply s .refusedConflict)) ∧
      (ordered → s.channels[l.channel].configured = true → exec (.limitWrite r) s = .next (reply
        { s with limits := s.limits.set i { bare with enable := true, level := .clear } } .ok)) ∧
      (ordered → s.channels[l.channel].configured = false → exec (.limitWrite r) s = .next (reply
        (raise 20 .none (.limit i) (some (BitVec.ofNat 16 l.channel.val))
          { s with limits := s.limits.set i { bare with enable := true, level := .unbound } }) .ok))) ∧
    (ReachedAt .service r s → s.sup.nacelle ≠ .operating → r.field = 0 → r.value = 0 → l.enable = true →
      exec (.limitWrite r) s = .next (reply
        { s with limits := s.limits.set i { bare with enable := false, level := .clear } } .ok)) ∧
    (ReachedAt .operator r s → r.field = 4 → l.enable = true → l.direction = .high →
      l.warn ≤ r.value.toInt → r.value.toInt ≤ 32767 → -32768 ≤ r.value.toInt →
      exec (.limitWrite r) s = .next (reply { s with limits := s.limits.set i { l with
        trip := r.value.toInt, counter := 0
        target := match l.level with | .warn => .warn | .trip => .trip | _ => .clear } } .ok))

/-- Outside OPERATING, present ON takes an ABSENT section to HELD with fault_hold OFF, health 256, capability 0 and,
its heatsink unusable, the blind factor with SECTION_BLIND raised; present OFF takes a section to ABSENT.
section_blind reaches at once every present section whose factor is the blind answer, in every nacelle state
(R70, R71, R73, R82). -/
def Obligations.SectionWritesTakeEffect : Prop :=
  ∀ (r : ReqArgs) (s : State), ReachedAt .service r s →
    let reply (table field : Octet) (u : State) : State := { u with reply := some (
      { status := .ok, table, index := r.index, tag := r.tag, part := false, value := r.value, field }) }
    (∀ i : Fin 6, r.index.toNat = i.val → s.sup.nacelle ≠ .operating →
      (r.value = 1 → s.sects[i].present = false → s.channels[s.sects[i].heatsink].state ≠ .live →
        exec (.sectionPresentWrite r) s = .next (reply 8 0
          (raise 35 .derate (.sect i) (some (unsignedFigure s.power.sectionBlind))
            { s with sects := s.sects.set i { s.sects[i] with
              present := true, state := .held, faultHold := false, health := 256, capability := 0
              thermal := s.power.sectionBlind, blind := true, curveFallback := false } }))) ∧
      (r.value = 0 → s.sects[i].present = true →
        exec (.sectionPresentWrite r) s = .next (reply 8 0
          { s with sects := s.sects.set i { s.sects[i] with
            present := false, state := .absent, faultHold := false, blind := false
            curveFallback := false, capability := 0 } }))) ∧
    (r.index = 0 → r.value.toNat ≤ 256 →
      exec (.sectionBlindWrite r) s = .next (reply 9 3 { s with
        power := { s.power with sectionBlind := r.value.toNat }
        sects := s.sects.map fun x =>
          if x.present = true ∧ (x.blind = true ∨ x.curveFallback = true) then
            { x with thermal := r.value.toNat } else x }))

/-- A write of twist with the yaw PARKED or HELD sets twist and twist_known; when it makes the hard condition begin
to hold, TWIST_HARD is pending, yaw_auto is OFF, an OPERATING nacelle is STOPPED with reason TWIST_HARD and the
yaw is HELD. In any other yaw state it is refused REFUSED_STATE (R111, R112). -/
def Obligations.TwistWriteSetsTwist : Prop :=
  ∀ (r : ReqArgs) (s : State), ReachedAt .service r s → r.index = 0 →
    let reply (st : Status) : Reply :=
      { status := st, table := 11, index := 0, tag := r.tag, part := false, value := r.value, field := 0 }
    let hard (z : Int) : Prop := s.yawCfg.twistHard ≤ z.natAbs
    (s.yaw.mode ≠ .parked → s.yaw.mode ≠ .held →
      exec (.twistWrite r) s = .next { s with reply := some (reply .refusedState) }) ∧
    ((s.yaw.mode = .parked ∨ s.yaw.mode = .held) →
      (hard s.yaw.twist ∨ ¬ hard r.value.toInt → exec (.twistWrite r) s = .next { s with
        yaw := { s.yaw with twist := r.value.toInt, twistKnown := true }, reply := some (reply .ok) }) ∧
      (¬ hard s.yaw.twist → hard r.value.toInt → ∃ t, exec (.twistWrite r) s = .next t ∧
        t.yaw.twist = r.value.toInt ∧ t.yaw.twistKnown = true ∧ t.yaw.mode = .held ∧
        t.causes[53].pending = true ∧ t.sup.mode.yawAuto = false ∧ t.reply = some (reply .ok) ∧
        (s.sup.nacelle = .operating → t.sup.nacelle = .stopped ∧ t.sup.reason = .cause 53 ∧
          t.lines.stopOut = true) ∧
        (s.sup.nacelle ≠ .operating → t.sup.nacelle = s.sup.nacelle ∧ t.sup.reason = s.sup.reason)))

/-- A write of present to a pump outside OPERATING, and a write of state OFF to a FAILED pump, leave it with its
counts and failure cleared, STARTING when it is called for and OFF otherwise: the order list holds exactly the present
pumps that are not FAILED, and the first n_req of it are commanded. A write that leaves present as it was, and OFF to
a pump that is not FAILED, changes nothing but the reply (R135, R136, R148). Which counts go to 0 is the model's
reading (log 19). -/
def Obligations.PumpWritesRebuildOrder : Prop :=
  ∀ (r : ReqArgs) (s : State) (k : Fin 3), ReachedAt .service r s → r.index.toNat = k.val →
    let reply (field : Octet) : Reply :=
      { status := .ok, table := 13, index := r.index, tag := r.tag, part := false, value := r.value, field }
    let rebuilt (t : State) : Prop :=
      (∀ j : Fin 3, j ∈ t.cool.order ↔ t.pumps[j].present = true ∧ t.pumps[j].state ≠ .failed) ∧
      (∀ j : Fin 3, t.pumps[j].commanded = decide (j ∈ t.cool.order.take s.cool.required)) ∧
      t.pumps[k].state = (if t.pumps[k].commanded then .starting else .off) ∧ t.pumps[k].startCount = 0 ∧
      t.pumps[k].lowCount = 0 ∧ t.pumps[k].minuteCount = 0 ∧ t.pumps[k].failure = .none ∧
      t = { s with pumps := t.pumps, cool := t.cool, causes := t.causes, reports := t.reports
                   reply := t.reply }
    (s.sup.nacelle ≠ .operating → r.value.toNat < 2 →
      (s.pumps[k].present = decide (r.value = 1) →
        exec (.pumpPresentWrite r) s = .next { s with reply := some (reply 0) }) ∧
      (s.pumps[k].present ≠ decide (r.value = 1) → ∃ t, exec (.pumpPresentWrite r) s = .next t ∧
        t.reply = some (reply 0) ∧ t.pumps[k].present = decide (r.value = 1) ∧ rebuilt t)) ∧
    (r.value = 0 →
      (s.pumps[k].state ≠ .failed →
        exec (.pumpStateWrite r) s = .next { s with reply := some (reply 3) }) ∧
      (s.pumps[k].state = .failed → ∃ t, exec (.pumpStateWrite r) s = .next t ∧
        t.reply = some (reply 3) ∧ t.pumps[k].present = s.pumps[k].present ∧ rebuilt t))

/-- A write of summary_enable or report_enable of an assigned cause changes that enable alone, in every nacelle state:
pending stays, no record is built; an unassigned number is refused REFUSED_INDEX (R158). -/
def Obligations.CauseEnableWriteActs : Prop :=
  ∀ (r : ReqArgs) (s : State) (c : Fin 128), ReachedAt .operator r s → r.index.toNat = c.val →
    (r.field = 2 ∨ r.field = 3) → r.value.toNat < 2 →
    let on := decide (r.value = 1)
    let reply (u : State) (st : Status) : State := { u with reply := some (
      { status := st, table := 14, index := r.index, tag := r.tag, part := false, value := r.value
        field := r.field }) }
    let x : Cause := if r.field = 2 then { s.causes[c] with summaryEnable := on }
      else { s.causes[c] with reportEnable := on }
    (causeKind c = .unassigned → exec (.causeEnableWrite r) s = .next (reply s .refusedIndex)) ∧
    (causeKind c ≠ .unassigned → exec (.causeEnableWrite r) s =
      .next (reply { s with causes := s.causes.set c x } .ok))

/-- A CLEAR of EVENT causes lowers pending and the injected mark of each and touches nothing else. A CLEAR of one LEVEL
cause whose condition has ended leaves it clear; one whose condition holds leaves it pending with its record built
anew, REPORT_OVERFLOW with records in the queue among them, while with an empty queue its CLEAR turns the overflow
flag OFF (R161). A CLEAR of a trip cause takes a latched limit out of TRIP into WARN or CLEAR when its channel is
usable and its last value recovered, and otherwise leaves it in TRIP with the cause pending again (R59; stated for
one latched limit that names the cause). The reply carries the causes of the group that are pending afterwards
(R58, R59, R155, R161, R183). -/
def Obligations.ClearLowersEventsAndKeepsHeldLevels : Prop :=
  ∀ (r : ReqArgs) (s : State) (g : Fin 8), ReachedAt .operator r s → r.index.toNat = g.val →
    let named (c : Fin 128) : Bool := decide (c.val / 16 = g.val) && r.value.getLsbD (c.val % 16)
    let reply (t : State) : Option Reply := some (
      { status := .ok, table := 14, index := r.index, tag := r.tag, part := false
        value := BitVec.ofNat 32 (pendingSet t g), field := r.field })
    let does (t : State) : Prop := exec (.clear 14 r) s = .next t ∧ t.reply = reply t
    ((∀ c, named c = true → causeKind c ≠ .level) → ∃ t, does t ∧ (∀ c : Fin 128, t.causes[c] =
        if named c = true ∧ causeKind c = .event then
          { s.causes[c] with pending := false, injected := false } else s.causes[c]) ∧
      t = { s with causes := t.causes, reply := t.reply }) ∧
    ∀ c : Fin 128, (∀ d, named d = true ↔ d = c) → causeKind c = .level →
      let down := s.causes.set c { s.causes[c] with pending := false, injected := false }
      let again (t : State) : Prop := t.causes[c].pending = true ∧ t.causes[c].injected = false ∧
        (s.causes[c].reportEnable = true → s.reports.queue.length < 32 →
          ∃ x, t.reports.queue = s.reports.queue ++ [x] ∧ x.cause = c ∧ x.stamp = s.ring.extCount) ∧
        t = { s with causes := t.causes, reports := t.reports, reply := t.reply }
      let latched (i : Fin 96) : Prop := s.limits[i].enable = true ∧ s.limits[i].latch = true ∧
        s.limits[i].level = .trip ∧ s.limits[i].tripCause = c
      (blockCondition c s = false → ∃ t, does t ∧ t = { s with causes := down, reply := t.reply }) ∧
      (c ≠ 80 → (c.val < 96 ∨ ∀ i, ¬ latched i) → blockCondition c s = true → ∃ t, does t ∧ again t) ∧
      (c = 80 → s.reports.queue ≠ [] → s.reports.overflow = true → ∃ t, does t ∧ t.reports.overflow = true ∧
        again t) ∧
      (c = 80 → s.reports.queue = [] → ∃ t, does t ∧
        t = { s with causes := down, reports := { s.reports with overflow := false }, reply := t.reply }) ∧
      ∀ i : Fin 96, 96 ≤ c.val → latched i → s.limits[i].warnCause ≠ some c →
        (∀ j : Fin 96, j ≠ i → s.limits[j].tripCause ≠ c ∧ s.limits[j].warnCause ≠ some c) →
        let l := s.limits[i]
        let back (x v : Int) : Prop :=
          l.direction = .high ∧ v < x - l.hysteresis ∨ l.direction = .low ∧ x + l.hysteresis < v
        let recovered (v : Int) : Prop :=
          s.channels[l.channel].state = .live ∧ l.lastValue = some v ∧ back l.trip v
        let lowered (x : Target) : Vector Limit 96 :=
          s.limits.set i { l with level := x.toLevel, target := x, counter := 0 }
        (∀ v, recovered v → back l.warn v → ∃ t, does t ∧
          t = { s with limits := lowered .clear, causes := down, reply := t.reply }) ∧
        (∀ v, recovered v → ¬ back l.warn v → ∃ t, does t ∧ t.causes[c].pending = false ∧
          (∀ d, l.warnCause = some d → t.causes[d].pending = true) ∧
          t = { s with limits := lowered .warn, causes := t.causes, reports := t.reports, reply := t.reply }) ∧
        ((∀ v, ¬ recovered v) → ∃ t, does t ∧ again t)

/-- The online count is the number of sections whose state is ONLINE, 0..6; the reply to a STATUS request gives it as
it stands, beside the nacelle, ring and yaw states, the top cause, the active groups and the queue depth; and it
changes by one with every change of a section into or out of ONLINE (R84). The top cause is the first in the order
of R157 that is pending with summary_enable ON, and a group is active while it holds such a cause (R157, R185). -/
def Obligations.StatusReplyGivesOnlineCount : Prop :=
  (∀ s : State, onlineCount s = (List.finRange 6).countP (fun i => s.sects[i].state = .online) ∧
    onlineCount s ≤ 6) ∧
  (∀ s : State,
    let counts (c : Fin 128) : Prop := s.causes[c].pending = true ∧ s.causes[c].summaryEnable = true
    let place (c : Fin 128) : Nat := [0, 6, 7, 2, 3, 4, 1, 5].idxOf (c.val / 16)
    (topCause s = none ↔ ∀ c, ¬ counts c) ∧
    (∀ c, topCause s = some c ↔
      counts c ∧ ∀ d, counts d → place c < place d ∨ place c = place d ∧ c ≤ d) ∧
    ∀ g : Fin 8, groupSummary s g = true ↔ ∃ c : Fin 128, c.val / 16 = g.val ∧ counts c) ∧
  (∀ (table : Octet) (r : ReqArgs) (s : State), ReachedAt .operator r s →
    exec (.statusRequest table r) s = .next { s with reply := some (
      { status := .ok, table
        index := BitVec.ofNat 8 (nacelleCode s.sup.nacelle) ++ BitVec.ofNat 8 (ringCode s.ring.mode)
        tag := r.tag, part := false
        value := BitVec.ofNat 8 (causeCode (topCause s)) ++ BitVec.ofNat 8 (activeGroups s) ++
          BitVec.ofNat 8 s.reports.queue.length ++ BitVec.ofNat 8 (onlineCount s)
        field := BitVec.ofNat 8 (yawCode s.yaw.mode) }) }) ∧
  ∀ (s : State) (i : Fin 6) (x : Sect),
    (s.sects[i].state ≠ .online → x.state = .online → onlineCount (s.setSect i x) = onlineCount s + 1) ∧
    (s.sects[i].state = .online → x.state ≠ .online → onlineCount (s.setSect i x) + 1 = onlineCount s) ∧
    ((s.sects[i].state = .online ↔ x.state = .online) → onlineCount (s.setSect i x) = onlineCount s)

/-! ### Commands -/

/-- START from LOADING or STOPPED enters OPERATING when its seven checks pass, releases STOP_OUT and changes nothing
else; otherwise it is refused with the number of the first check that fails, and in OPERATING or TEST with 0.
STOP takes OPERATING to STOPPED with reason MANAGEMENT and its ONLINE sections to HELD, and is answered OK in
every state (R81, R166, R167). -/
def Obligations.StartAndStopMoveNacelle : Prop :=
  ∀ (r : ReqArgs) (s : State), ReachedAt .operator r s →
    let reply (no : Octet) (st : Status) (v : Word) : Reply :=
      { status := st, table := no, index := r.index, tag := r.tag, part := false, value := v
        field := r.field }
    let checks : List Prop :=
      [s.ring.broken = false, s.lines.estopIn = false, 0 < s.power.rating,
        ∀ i : Fin 5, 2 ≤ s.curves[i].count,
        ¬ ∃ i : Fin 96, s.limits[i].enable = true ∧ s.limits[i].action = .nacelleStop ∧
          s.limits[i].level = .unbound,
        ¬ ∃ i : Fin 96, s.limits[i].enable = true ∧ s.limits[i].action = .nacelleStop ∧
          s.limits[i].level = .trip,
        s.causes[53].pending = false]
    let waiting : Prop := s.sup.nacelle = .loading ∨ s.sup.nacelle = .stopped
    (waiting → (∀ p ∈ checks, p) → exec (.start r) s = .next { s with
      sup := { s.sup with nacelle := .operating, reason := .none }
      lines := { s.lines with stopOut := false }
      reply := some (reply 1 .ok 0) }) ∧
    (waiting → ∀ n : Fin 7, (∀ m : Fin 7, m < n → checks.getD m.val True) → ¬ checks.getD n.val True →
      exec (.start r) s = .next { s with
        reply := some (reply 1 .refusedState (BitVec.ofNat 32 (n.val + 1))) }) ∧
    (¬ waiting → exec (.start r) s = .next { s with reply := some (reply 1 .refusedState 0) }) ∧
    (s.sup.nacelle = .operating → exec (.stop r) s = .next { s with
      sup := { s.sup with nacelle := .stopped, reason := .management }
      lines := { s.lines with stopOut := true }
      sects := s.sects.map fun x => if x.state = .online then { x with state := .held } else x
      reply := some (reply 2 .ok 0) }) ∧
    (s.sup.nacelle ≠ .operating → exec (.stop r) s = .next { s with reply := some (reply 2 .ok 0) })

/-- RESTART is taken in every nacelle state at SERVICE and takes every block through its warm reset: LOADING with no
stop reason, the mode record at its defaults, both output lines asserted, every CONFIGURED channel STALE at 0
and none forced, every enabled limit armed and its latched trip ended, present sections HELD, the yaw HELD with its
twist kept, the request, the ceiling and every reference 0, no pump commanded; the tables and the ring are kept, and
COOLING_BLIND is pending (R19, R40, R52, R68, R88, R106, R130, R150, R164, R171). These values hold whichever of the
two orders of log 16 the reset takes. -/
def Obligations.RestartWarmResets : Prop :=
  ∀ (r : ReqArgs) (s : State), ReachedAt .service r s →
    ∃ t, exec (.restart r) s = .next t ∧
      t.reply = some { status := .ok, table := 3, index := r.index, tag := r.tag, part := false, value := 0
                       field := r.field } ∧
      t.sup = { nacelle := .loading, reason := .none, mode := Mode.cold } ∧
      t.lines = { s.lines with stopOut := true, brakeHold := true } ∧
      t.ring = s.ring ∧ t.windows = s.windows ∧ t.curves = s.curves ∧ t.plan = s.plan ∧
      t.yawCfg = s.yawCfg ∧ t.coolCfg = s.coolCfg ∧ t.lowHalf = none ∧
      (∀ ch : Fin 128, t.channels[ch] = { s.channels[ch] with
        state := if s.channels[ch].configured then .stale else .empty
        value := 0, quiet := 0, forced := false }) ∧
      (∀ i : Fin 96, t.limits[i] = { s.limits[i] with
        level := if s.limits[i].enable && !s.channels[s.limits[i].channel].configured then .unbound else .clear
        target := .clear, counter := 0, lastValue := none }) ∧
      (∀ i : Fin 6, t.sects[i].state = if s.sects[i].present then .held else .absent) ∧
      t.yaw.mode = .held ∧ t.yaw.twist = s.yaw.twist ∧ t.yaw.window = [] ∧
      t.yaw.factor = s.yawCfg.yawBlind ∧
      t.power.rEff = 0 ∧ t.power.ceiling = 0 ∧ t.power.issued = Vector.replicate 6 0 ∧
      t.power.rating = s.power.rating ∧
      (∀ k : Fin 3, t.pumps[k].commanded = false ∧ t.pumps[k].state = .off ∧
        t.pumps[k].runMinutes = s.pumps[k].runMinutes) ∧
      t.cool.dry = false ∧ t.causes[66].pending = true ∧
      ∀ c : Fin 128, causeKind c = .event → t.causes[c] =
        { s.causes[c] with pending := false, injected := false }

/-- TEST_ENTER from LOADING or STOPPED with the yaw PARKED or HELD enters TEST with no stop reason, raises TEST_ACTIVE
and holds the yaw; otherwise it is refused with the number of the failing check. TEST_EXIT from TEST enters
STOPPED with reason MANAGEMENT, leaves no channel forced, and empties the misalignment window (R113, R124, R169,
R170). -/
def Obligations.TestEnterAndExit : Prop :=
  ∀ (r : ReqArgs) (s : State), ReachedAt .service r s →
    let reply (no : Octet) (st : Status) (v : Word) : Reply :=
      { status := st, table := no, index := r.index, tag := r.tag, part := false, value := v
        field := r.field }
    let waiting : Prop := s.sup.nacelle = .loading ∨ s.sup.nacelle = .stopped
    let rest : Prop := s.yaw.mode = .parked ∨ s.yaw.mode = .held
    (waiting → rest → ∃ t, exec (.testEnter r) s = .next t ∧ t.reply = some (reply 4 .ok 0) ∧
      t.sup = { s.sup with nacelle := .test, reason := .none } ∧ t.causes[81].pending = true ∧
      t.yaw.mode = .held ∧ t.yaw.twist = s.yaw.twist ∧ t.lines.stopOut = true ∧
      t.channels = s.channels ∧ t.sects = s.sects ∧ t.ring = s.ring) ∧
    (¬ waiting → exec (.testEnter r) s = .next { s with reply := some (reply 4 .refusedState 1) }) ∧
    (waiting → ¬ rest → exec (.testEnter r) s = .next { s with reply := some (reply 4 .refusedState 2) }) ∧
    (s.sup.nacelle = .test → ∃ t, exec (.testExit r) s = .next t ∧ t.reply = some (reply 5 .ok 0) ∧
      t.sup = { s.sup with nacelle := .stopped, reason := .management } ∧ t.lines.stopOut = true ∧
      t.yaw.window = [] ∧ t.yaw.judgement = .filling ∧ t.ring = s.ring ∧
      ∀ ch : Fin 128, t.channels[ch] = if s.channels[ch].forced then
        { s.channels[ch] with forced := false, state := .stale, quiet := 0 } else s.channels[ch]) ∧
    (s.sup.nacelle ≠ .test → exec (.testExit r) s = .next { s with reply := some (reply 5 .refusedState 1) })

/-- SECTION_RELEASE of a section 0..5 puts it ONLINE when its five checks pass in order, and is refused with the
number of the first that fails otherwise; SECTION_HOLD takes an ONLINE section to HELD, leaves a HELD one, and is
refused for any other; an index above 5 is refused REFUSED_INDEX (R74, R75). -/
def Obligations.SectionReleaseAndHold : Prop :=
  ∀ (r : ReqArgs) (s : State), ReachedAt .operator r s →
    let reply (no : Octet) (u : State) (st : Status) (v : Word) : State := { u with reply := some (
      { status := st, table := no, index := r.index, tag := r.tag, part := false, value := v
        field := r.field }) }
    (6 ≤ r.index.toNat →
      exec (.sectionRelease r) s = .next (reply 6 s .refusedIndex r.value) ∧
      exec (.sectionHold r) s = .next (reply 7 s .refusedIndex r.value)) ∧
    ∀ i : Fin 6, r.index.toNat = i.val →
      let x := s.sects[i]
      let put (st : SectState) : State := { s with sects := s.sects.set i { x with state := st } }
      let checks : List Prop :=
        [s.sup.nacelle = .operating, x.state = .held, s.cool.dry = true,
          s.channels[x.status].state = .live ∧ s.channels[x.status].value = 1,
          s.channels[x.heatsink].state = .live]
      ((∀ p ∈ checks, p) → exec (.sectionRelease r) s = .next (reply 6 (put .online) .ok 0)) ∧
      (∀ n : Fin 5, (∀ m : Fin 5, m < n → checks.getD m.val True) → ¬ checks.getD n.val True →
        exec (.sectionRelease r) s = .next (reply 6 s .refusedState (BitVec.ofNat 32 (n.val + 1)))) ∧
      (x.state = .online → exec (.sectionHold r) s = .next (reply 7 (put .held) .ok 0)) ∧
      (x.state = .held → exec (.sectionHold r) s = .next (reply 7 s .ok 0)) ∧
      (x.state = .absent ∨ x.state = .isolated →
        exec (.sectionHold r) s = .next (reply 7 s .refusedState 1))

/-- The yaw commands, once their checks pass: YAW_RESUME returns HELD to PARKED; YAW_UNWIND takes PARKED to UNWIND_WAIT
with F_y saved and at 0; YAW_JOG takes PARKED into JOGGING in the given direction for the rounds asked, clamped
into 1..40,000 and answered ADJUSTED outside it. Each is otherwise refused with the number of the first check that
fails (R115, R116, R124, R125, R128). That rounds of 2³¹ and above are clamped as unsigned ones is the model's choice
(log 20). -/
def Obligations.YawCommandsMoveState : Prop :=
  ∀ (r : ReqArgs) (s : State),
    let reply (no : Octet) (st : Status) (v : Word) : Reply :=
      { status := st, table := no, index := r.index, tag := r.tag, part := false, value := v
        field := r.field }
    let permits : Prop := s.sup.nacelle = .operating ∨ s.sup.nacelle = .stopped ∧ s.sup.reason ≠ .cause 1 ∧
      ∀ c, s.sup.reason = .cause c → c.val / 16 ≠ 3
    let held : Prop := ∃ i : Fin 96, s.limits[i].enable = true ∧ s.limits[i].level = .trip ∧
      s.limits[i].action = .yawHold
    let ready : List Prop := [permits, s.ring.broken = false, s.yaw.twistKnown = true,
      s.channels[s.yawCfg.heading].state = .live]
    let refuses (no : Octet) (i : Instr) (checks : List Prop) : Prop :=
      ∀ n : Fin 7, (∀ m : Fin 7, m < n → checks.getD m.val True) → ¬ checks.getD n.val True →
        exec i s = .next { s with reply := some (reply no .refusedState (BitVec.ofNat 32 (n.val + 1))) }
    (ReachedAt .operator r s →
      let resume : List Prop := (s.yaw.mode = .held) :: ready ++ [¬ held]
      let unwind : List Prop := (s.yaw.mode = .parked) :: ready ++ [s.yawCfg.unwindTarget < s.yaw.twist.natAbs]
      ((∀ p ∈ resume, p) → exec (.yawResume r) s = .next { s with
        yaw := { s.yaw with
          mode := .parked, endMark := false, startCount := 0, unwindMark := false
          factor := if s.yaw.unwindMark then s.yaw.saved else s.yaw.factor }
        lines := { s.lines with brakeHold := true }, reply := some (reply 8 .ok 0) }) ∧
      refuses 8 (.yawResume r) resume ∧
      ((∀ p ∈ unwind, p) → exec (.yawUnwind r) s = .next { s with
        yaw := { s.yaw with
          mode := .unwindWait, unwindMark := true, saved := s.yaw.factor, factor := 0
          idleCount := 0, waitCount := 0 }
        lines := { s.lines with brakeHold := true }, reply := some (reply 9 .ok 0) }) ∧
      refuses 9 (.yawUnwind r) unwind) ∧
    (ReachedAt .service r s → r.index = 0 ∨ r.index = 1 →
      let n := max 1 (min r.value.toNat 40000)
      let d : Turn := if r.index = 1 then .ccw else .cw
      let jog : List Prop := (s.yaw.mode = .parked) :: (s.sup.mode.yawAuto = false) :: ready ++
        [¬ (s.yawCfg.twistHard ≤ s.yaw.twist.natAbs ∧
          (d = .cw ∧ 0 ≤ s.yaw.twist ∨ d = .ccw ∧ s.yaw.twist ≤ 0))]
      ((∀ p ∈ jog, p) → exec (.yawJog r) s = .next { s with
        yaw := { s.yaw with
          mode := .jogging, phase := .release, turn := d, releaseCount := 0, jogRounds := n }
        lines := { s.lines with brakeHold := false }
        reply := some (reply 10 (if n = r.value.toNat then .ok else .adjusted) (BitVec.ofNat 32 n)) }) ∧
      refuses 10 (.yawJog r) jog)

/-- In TEST: INJECT_VALUE forces a CONFIGURED channel LIVE at the given value, clamped into 16 bits signed;
RELEASE_FORCE makes a forced channel STALE with its value held and CHANNEL_STALE pending; INJECT_CAUSE raises an
assigned cause with action TEST and marks a LEVEL cause injected. Outside TEST each is refused with 1. Stated
for INJECT_VALUE on a channel with no reader, or with the cooling unit alone (R36, R162, R170): T_in takes its coolant
factor from COOLANT (R140), and T_in, T_cab and RH form the margin (R144), at which the guard drops the commanded
stage (R143), the heater switches (R145), and a margin below dry_lost ends a true dry permissive (R146). -/
def Obligations.ForcingCommandsInTest : Prop :=
  ∀ (r : ReqArgs) (s : State) (ch : Fin 128), ReachedAt .service r s → r.index.toNat = ch.val →
    let x := s.channels[ch]
    let v := max (-32768) (min r.value.toInt 32767)
    let reply (no : Octet) (st : Status) (w : Word) : Reply :=
      { status := st, table := no, index := r.index, tag := r.tag, part := false, value := w
        field := r.field }
    let forced : State := { s with
      channels := s.channels.set ch { x with forced := true, state := .live, value := v }
      reply := some (reply 11 (if v = r.value.toInt then .ok else .adjusted) (BitVec.ofInt 32 v)) }
    (s.sup.nacelle = .test → x.configured = true → readersOf s ch = [] →
      exec (.injectValue r) s = .next forced) ∧
    (s.sup.nacelle = .test → x.configured = true → readersOf s ch = [.cooling] →
      let cfg := s.coolCfg
      let running := ((List.finRange 3).filter fun k => s.pumps[k].state = .running).length
      let answer := evalCurve s.curves[CurveNo.coolant] v
      let margin : Option Int :=
        match chanValue forced cfg.tin, chanValue forced cfg.tcab, chanValue forced cfg.rh with
        | some a, some b, some h => some (a - (b - (1000 - max 0 (min h 1000)) / 5))
        | _, _, _ => none
      let guarded : Prop := ∃ m a, margin = some m ∧ chanValue forced cfg.tin = some a ∧ m < cfg.guard ∧
        a < cfg.emergency
      ∃ t, exec (.injectValue r) s = .next t ∧
        (ch = cfg.tin → t.cool.coolantFactor = answer.getD cfg.blind ∧ t.cool.blindMark = false ∧
          t.cool.factor = min t.cool.coolantFactor (cfg.pumpFactor.toList.getD running 0)) ∧
        (ch ≠ cfg.tin → t.cool.coolantFactor = s.cool.coolantFactor ∧ t.cool.factor = s.cool.factor) ∧
        t.cool.margin = margin ∧
        (guarded → t.cool.commanded = min s.cool.commanded cfg.guardCap) ∧
        (¬ guarded → t.cool.commanded = s.cool.commanded) ∧
        t.cool.heater = (match margin with
          | none => true
          | some m => if m < cfg.heatOn then true else if cfg.heatOff < m then false else s.cool.heater) ∧
        (t.cool.dry = true ↔ s.cool.dry = true ∧ ∃ m, margin = some m ∧ cfg.dryLost ≤ m) ∧
        (s.cool.dry = true → t.cool.dry = false → s.cool.beenDry = true → t.causes[67].pending = true) ∧
        t = { forced with cool := t.cool, causes := t.causes, reports := t.reports }) ∧
    (s.sup.nacelle = .test → x.configured = false →
      exec (.injectValue r) s = .next { s with reply := some (reply 11 .refusedState 2) }) ∧
    (s.sup.nacelle = .test → x.forced = true → x.state = .live →
      ∃ t, exec (.releaseForce r) s = .next t ∧ t.reply = some (reply 13 .ok 0) ∧
        t.channels = s.channels.set ch { x with forced := false, state := .stale, quiet := 0 } ∧
        t.causes[16].pending = true ∧ t.ring = s.ring ∧ t.sup = s.sup) ∧
    (s.sup.nacelle = .test → x.forced = false →
      exec (.releaseForce r) s = .next { s with reply := some (reply 13 .refusedState 2) }) ∧
    (s.sup.nacelle = .test → causeKind ch ≠ .unassigned →
      exec (.injectCause r) s = .next { raise ch .test .none none
        (if causeKind ch = .level then
          { s with causes := s.causes.set ch { s.causes[ch] with injected := true } } else s) with
        reply := some (reply 12 .ok 0) }) ∧
    (s.sup.nacelle ≠ .test →
      exec (.injectValue r) s = .next { s with reply := some (reply 11 .refusedState 1) } ∧
      exec (.releaseForce r) s = .next { s with reply := some (reply 13 .refusedState 1) } ∧
      (causeKind ch ≠ .unassigned →
        exec (.injectCause r) s = .next { s with reply := some (reply 12 .refusedState 1) }))

/-! ### What the blocks compute -/

/-- A rise of a cause that is not pending makes it pending and, with report_enable ON, appends one record with the
stamp as it stands to a queue of fewer than 32 records; at a full queue the record is lost, the overflow flag
goes ON and REPORT_OVERFLOW is pending. A rise of a pending cause changes nothing (R152, R161). -/
def Obligations.RaiseRecordsOncePending : Prop :=
  ∀ (c : Fin 128) (a : RecAction) (sub : Subject) (v : Option Half) (s : State),
    let up := s.causes.set c { s.causes[c] with pending := true }
    let x : FaultRecord := { cause := c, stamp := s.ring.extCount, action := a, subject := sub, value := v }
    (s.causes[c].pending = true → raise c a sub v s = s) ∧
    (s.causes[c].pending = false → s.causes[c].reportEnable = false →
      raise c a sub v s = { s with causes := up }) ∧
    (s.causes[c].pending = false → s.causes[c].reportEnable = true → s.reports.queue.length < 32 →
      raise c a sub v s = { s with
        causes := up, reports := { s.reports with queue := s.reports.queue ++ [x] } }) ∧
    (s.causes[c].pending = false → s.causes[c].reportEnable = true → 32 ≤ s.reports.queue.length →
      raise c a sub v s = { s with
        reports := { s.reports with overflow := true }
        causes := (raise c a sub v s).causes } ∧
      (raise c a sub v s).causes[c].pending = true ∧ (raise c a sub v s).causes[80].pending = true)

/-- An evaluation of an enabled, bound limit records the value and sets the target: a level is reached at its own
figure and, once in force, left only past it by more than the hysteresis (R53, R54). A target that is the level keeps
it with counter 0; another one counts, from 1 when it is new, and moves the level at persistence, by two steps at once
too (R55). A latched limit in TRIP stays there with counter 0 and target TRIP (R56). A move into WARN raises the warn
cause, one into TRIP raises the trip cause with its action, and the action begins: sections are isolated, the yaw is
held, or an OPERATING nacelle stops with the trip cause as reason; a move into CLEAR raises nothing (R57, R63, R64,
R65, R79, R124, R167). -/
def Obligations.LimitEvaluationMovesLevel : Prop :=
  ∀ (i : Fin 96) (v : Int) (s : State), s.limits[i].enable = true → s.limits[i].level ≠ .unbound →
    let l := s.limits[i]
    let after (t : State) : Prop := evaluateLimit i v s = t
    let put (x : Limit) : State := { s with limits := s.limits.set i { x with lastValue := some v } }
    let reached (x : Int) : Bool := if l.direction = .high then decide (x ≤ v) else decide (v ≤ x)
    let held (x : Int) : Int := if l.direction = .high then x - l.hysteresis else x + l.hysteresis
    let target : Target :=
      if reached (if l.level = .trip then held l.trip else l.trip) then .trip
      else if reached (if l.level = .clear then l.warn else held l.warn) then .warn
      else .clear
    let n := if target = l.target then l.counter + 1 else 1
    (l.latch = true → l.level = .trip → after (put { l with target := .trip, counter := 0 })) ∧
    (l.latch = false ∨ l.level ≠ .trip →
      (target.toLevel = l.level → after (put { l with target := target, counter := 0 })) ∧
      (target.toLevel ≠ l.level → n < l.persistence → after (put { l with target := target, counter := n })) ∧
      (target.toLevel ≠ l.level → l.persistence ≤ n →
        let moved := put { l with level := target.toLevel, target := target, counter := 0 }
        let tripped (a : RecAction) : State := raise l.tripCause a (.limit i) (some (signedFigure v)) moved
        let isolated (x : Sect) : Sect :=
          if x.state = .online ∨ x.state = .held then { x with state := .isolated } else x
        (target = .clear ∨ target = .warn ∧ l.warnCause = none → after moved) ∧
        (∀ c, target = .warn → l.warnCause = some c →
          after (raise c .none (.limit i) (some (signedFigure v)) moved)) ∧
        (target = .trip →
          (l.action = .report → after (tripped .none)) ∧
          (l.action = .derateSection → after (tripped .derate)) ∧
          (l.action = .ceiling → after (tripped .ceiling)) ∧
          (l.action = .isolateSection → after { tripped .isolate with
            sects := s.sects.set l.subject (isolated s.sects[l.subject]) }) ∧
          (l.action = .isolateAll → after { tripped .isolate with sects := s.sects.map isolated }) ∧
          (l.action = .yawHold → s.yaw.mode = .held → after (tripped .yawHold)) ∧
          (l.action = .yawHold → s.yaw.mode ≠ .held → after { tripped .yawHold with
            lines := { s.lines with brakeHold := true }
            yaw := { s.yaw with
              mode := .held, endMark := false, unwindMark := false
              factor := if s.yaw.unwindMark then s.yaw.saved else s.yaw.factor
              groupB := false, releaseCount := 0, staggerCount := 0, slewCount := 0, stallCount := 0
              coastCount := 0, brakeCount := 0, idleCount := 0, waitCount := 0 } }) ∧
          (l.action = .nacelleStop → s.sup.nacelle ≠ .operating → after (tripped .nacelleStop)) ∧
          (l.action = .nacelleStop → s.sup.nacelle = .operating → 96 ≤ l.tripCause.val →
            after { tripped .nacelleStop with
              sup := { s.sup with nacelle := .stopped, reason := .cause l.tripCause }
              lines := { s.lines with stopOut := true }
              sects := s.sects.map fun x => if x.state = .online then { x with state := .held } else x }))))

/-- A set curve answers within the range of its active ordinates, the first of them at or below the first abscissa and
the last of them at or above the last; the abscissas are strictly ascending (R42, R45). -/
def Obligations.CurveAnswerStaysWithinOrdinates : Prop :=
  ∀ (c : Curve) (x : Int) (lo hi : Nat), 2 ≤ c.count → c.count ≤ 8 →
    (∀ j k : Fin 8, j < k → k.val < c.count → c.points[j].x < c.points[k].x) →
    (∀ j : Fin 8, j.val < c.count → lo ≤ c.points[j].y ∧ c.points[j].y ≤ hi) →
    ∃ y, evalCurve c x = some y ∧ lo ≤ y ∧ y ≤ hi ∧
      (x ≤ c.points[0].x → y = c.points[0].y) ∧
      (∀ k : Fin 8, k.val + 1 = c.count → c.points[k].x ≤ x → y = c.points[k].y)

/-- At a close a present section becomes ISOLATED by a standing isolation demand, and an ISOLATED one returns to HELD
without a demand and with fault_hold OFF; its health factor is the least derate of its limits in TRIP, 256 without
one, and its capability follows when it is ONLINE, 0 otherwise (R79, R80, R83). That a section isolated at a close
has capability 0 at that very close, its state being settled first, is the model's reading (log 23). At a close the
ceiling is the least of the five terms with the gate open, and 0 with it closed; its term is GATE then, and otherwise
the first of the five that equals it. The limits' term is the least action_value of the CEILING limits in TRIP, and the
rating without one (R62). A section's share is floor(L × C_i / A), and the first D sections by remainder,
largest first and the lower number first among equals, have one more, D being what the floored shares fall short; the
shares sum to the ceiling exactly, none above its capability; each issued reference is the lesser of its share and the
previous reference plus ramp_step, and 0 for a section that is not ONLINE; an ONLINE section's command cell carries it
(R92, R93, R95, R96, R97). -/
def Obligations.DispatchSharesTheCeiling : Prop :=
  (∀ s : State, blockClose .sections s = sectionsClose s) ∧
  (∀ (s : State) (i : Fin 6),
    let x := s.sects[i]
    let y := (sectionsClose s).sects[i]
    let tripped (j : Fin 96) (a : LimitAction) : Prop :=
      s.limits[j].enable = true ∧ s.limits[j].level = .trip ∧ s.limits[j].action = a
    let isolating : Prop := ∃ j, tripped j .isolateSection ∧ s.limits[j].subject = i ∨ tripped j .isolateAll
    let derates (j : Fin 96) : Prop := tripped j .derateSection ∧ s.limits[j].subject = i
    sectionsClose s = { s with sects := (sectionsClose s).sects } ∧ (x.present = false → y = x) ∧
    (x.present = true → y = { x with state := y.state, health := y.health, capability := y.capability } ∧
      (isolating → x.state ≠ .absent → y.state = .isolated) ∧
      (¬ isolating → x.state = .isolated → x.faultHold = false → y.state = .held) ∧
      (¬ isolating → x.state ≠ .isolated ∨ x.faultHold = true → y.state = x.state) ∧
      y.health ≤ 256 ∧ (∀ j, derates j → y.health ≤ s.limits[j].actionValue) ∧
      (y.health = 256 ∨ ∃ j, derates j ∧ y.health = s.limits[j].actionValue) ∧
      y.capability = if y.state = .online then x.rating * x.thermal / 256 * y.health / 256 else 0)) ∧
  ∀ s : State,
    let p := (dispatchAtClose s).power
    let cap (i : Fin 6) : Nat := s.sects[i].capability
    let sum (f : Fin 6 → Nat) : Nat := ((List.finRange 6).map f).sum
    let total := sum cap
    let opened : Prop := s.sup.nacelle = .operating ∧ s.sup.mode.runEnable = true
    let capping (j : Fin 96) : Prop :=
      s.limits[j].enable = true ∧ s.limits[j].level = .trip ∧ s.limits[j].action = .ceiling
    let terms : List (CeilingTerm × Nat) :=
      [(.request, s.power.rEff), (.cooling, s.power.rating * s.cool.factor / 256),
        (.yaw, s.power.rating * s.yaw.factor / 256), (.limit, (ceilingCap s).getD s.power.rating), (.capability, total)]
    let floored (i : Fin 6) : Nat := if total = 0 then 0 else p.ceiling * cap i / total
    let remainder (i : Fin 6) : Nat := if total = 0 then 0 else p.ceiling * cap i % total
    let deficit := p.ceiling - sum floored
    let before (i : Fin 6) : List (Fin 6) := (List.finRange 6).filter fun j =>
      decide (remainder i < remainder j ∨ remainder j = remainder i ∧ j < i)
    dispatchAtClose s = { s with power := { s.power with
        ceiling := p.ceiling, term := p.term, shares := p.shares, issued := p.issued, issuedSum := p.issuedSum
        tReq := s.power.rEff, tCool := s.power.rating * s.cool.factor / 256
        tYaw := s.power.rating * s.yaw.factor / 256, tLim := (ceilingCap s).getD s.power.rating, capSum := total } } ∧
      ((∀ j, ¬ capping j) → ceilingCap s = none) ∧
      (∀ j, capping j → ∃ n, ceilingCap s = some n ∧ n ≤ s.limits[j].actionValue ∧
        ∃ k, capping k ∧ n = s.limits[k].actionValue) ∧
      (∀ x ∈ terms, p.ceiling ≤ x.2) ∧
      (¬ opened → p.ceiling = 0 ∧ p.term = .gate) ∧
      (opened → ∃ n : Nat, terms[n]? = some (p.term, p.ceiling) ∧
        ∀ m x, m < n → terms[m]? = some x → x.2 ≠ p.ceiling) ∧
      (∀ i : Fin 6, p.shares[i] = floored i + if (before i).length < deficit then 1 else 0) ∧
      (sum fun i => p.shares[i]) = p.ceiling ∧ (∀ i : Fin 6, p.shares[i] ≤ cap i) ∧
      (∀ i : Fin 6, p.issued[i] = (if s.sects[i].state = .online then
          min p.shares[i] (s.power.issued[i] + s.sects[i].rampStep) else 0) ∧
        p.issued[i] ≤ cap i ∧
        (s.sects[i].state = .online → s.sup.nacelle ≠ .test →
          (sectCommand (dispatchAtClose s) i).1 = p.issued[i])) ∧
      p.issuedSum = (sum fun i => p.issued[i]) ∧ p.issuedSum ≤ p.ceiling

/-- A rebuild of the order list places the present pumps that are not FAILED, those STARTING or RUNNING first, then by
fewer run_minutes, then by the lower number (R135). After each rebuild, and each change of the required count, exactly
the pumps among its first entries are commanded ON, and the pump states follow at the same moment: OFF starts with
start count 0, STARTING and RUNNING go OFF with their count at 0 and no failure, FAILED stays. Never more pumps are
commanded on than required, and never a FAILED one; a change of the required count is such an occasion (R136). The
required count is PUMP_DEMAND at the request fraction, 3 while that curve is unset, by the nacelle state. At a close
the count comes first; the pumps that stay STARTING are judged, then those that were RUNNING; PUMPS_SHORT is judged,
the minutes count and F_c is formed (R134, R137, R138, R139, R140). That a pump which the new count has put OFF is not
judged is the model's choice (log 34); the order among several pumps is open (log 2). -/
def Obligations.PumpsFollowTheOrderList : Prop :=
  (∀ v : State,
    let q := if v.power.rating = 0 then 0 else min (256 * v.power.rEff / v.power.rating) 1024
    let answer := (evalCurve v.curves[CurveNo.pumpDemand] q).getD 3
    let flows (u : State) (k : Fin 3) : Bool := decide (u.channels[u.pumps[k].flowChannel].state = .live) &&
      decide ((u.coolCfg.flowOk : Int) ≤ u.channels[u.pumps[k].flowChannel].value)
    let put (u : State) (k : Fin 3) (p : Pump) : State := { u with pumps := u.pumps.set k p }
    let starts (u : State) (k : Fin 3) : State :=
      let p := u.pumps[k]
      if p.state ≠ .starting then u
      else if flows u k then put u k { p with state := .running, lowCount := 0, cleared := false }
      else
        let w := put u k { p with startCount := p.startCount + 1 }
        if u.coolCfg.pumpStart ≤ p.startCount + 1 then failPump k .start w else w
    let runs (u : State) (k : Fin 3) : State :=
      let p := u.pumps[k]
      if p.state ≠ .running then u
      else if flows u k then put u k { p with lowCount := 0 }
      else
        let w := put u k { p with lowCount := p.lowCount + 1 }
        if u.coolCfg.pumpPersist ≤ p.lowCount + 1 then failPump k .flow w else w
    let minutes (u : State) (k : Fin 3) : State :=
      let p := u.pumps[k]
      if p.state = .running then stateAfter (.runMinute k) (put u k { p with minuteCount := p.minuteCount + 1 })
      else u
    let running (u : State) : List (Fin 3) := (List.finRange 3).filter fun k => u.pumps[k].state = .running
    let first := requiredAtClose v
    requiredNow v = (if v.sup.nacelle = .loading then 0 else if v.sup.nacelle = .operating then max answer 1
        else answer) ∧
      (requiredNow v = v.cool.required → first = v) ∧
      ∃ (a b : List (Fin 3)) (c1 c2 : List Nat) (n1 n2 : Nat),
        a.Perm ((List.finRange 3).filter fun k =>
          v.pumps[k].state = .starting && first.pumps[k].state = .starting) ∧ b.Perm (running v) ∧
        let begun := a.foldl starts { first with choices := c1, choiceNo := n1 }
        let judged := b.foldl runs { begun with choices := c2, choiceNo := n2 }
        let short := if (running judged).length < judged.cool.required then
          raise 65 .none .none (some (unsignedFigure judged.cool.required)) judged else judged
        let counted := (List.finRange 3).foldl minutes short
        pumpsAtClose v = { counted with cool := { counted.cool with
          factor := min counted.cool.coolantFactor
            (counted.coolCfg.pumpFactor.toList.getD (running counted).length 0) } }) ∧
  ∀ s : State,
    let t := reorderPumps s
    (requiredNow s ≠ s.cool.required →
      requiredAtClose s = reorderPumps { s with cool := { s.cool with required := requiredNow s } }) ∧
    (∀ k : Fin 3, k ∈ t.cool.order ↔ s.pumps[k].present = true ∧ s.pumps[k].state ≠ .failed) ∧
    (let serves (k : Fin 3) : Bool := s.pumps[k].state = .starting || s.pumps[k].state = .running
     t.cool.order.Pairwise fun a b =>
      serves a = true ∧ serves b = false ∨
      serves a = serves b ∧ (s.pumps[a].runMinutes < s.pumps[b].runMinutes ∨
        s.pumps[a].runMinutes = s.pumps[b].runMinutes ∧ a < b)) ∧
    (∀ k : Fin 3,
      let p := s.pumps[k]
      let on := decide (k ∈ t.cool.order.take s.cool.required)
      t.pumps[k].commanded = on ∧
      (p.state = .off → t.pumps[k] = if on then
        { p with commanded := true, state := .starting, startCount := 0 } else { p with commanded := false }) ∧
      (p.state = .starting → t.pumps[k] = if on then { p with commanded := true }
        else { p with commanded := false, state := .off, startCount := 0 }) ∧
      (p.state = .running → t.pumps[k] = if on then { p with commanded := true }
        else { p with commanded := false, state := .off, lowCount := 0 }) ∧
      (p.state = .failed → on = false ∧ t.pumps[k] = { p with commanded := false })) ∧
    ((List.finRange 3).filter fun k => t.pumps[k].commanded).length ≤ s.cool.required ∧
    t = { s with pumps := t.pumps, cool := { s.cool with order := t.cool.order } }

/-- The YAW command never has a motor group on while its brake is applied, nor in a state other than SLEWING or the
slew phase of UNWINDING or JOGGING, and group B only with group A (R117). -/
def Obligations.YawCommandKeepsMotorsOffTheBrake : Prop :=
  ∀ y : Yaw,
    let value := (yawCommand y).1
    let flags := (yawCommand y).2
    value < 8 ∧ (flags = 0 ∨ flags = 4) ∧ (value % 4 ≠ 0 → flags = 4) ∧
      (value % 4 ≠ 0 → y.mode = .slewing ∨ (y.mode = .unwinding ∨ y.mode = .jogging) ∧ y.phase = .slew) ∧
      value % 4 ≠ 2 ∧ (flags = 0 ↔ brakeApplied y.mode = true)
end

