-- ==== Sys2Proof/Laws/State.lean ====
section
/-! SUPPORT. One lemma per field for each named update of the state, so that no proof unfolds a record
update. -/

namespace Sys2Proof.Machine

/-! `State.setChannel` -/

@[simp] theorem State.setChannel_ring (s : State) (i : Fin 128) (x : Channel) : (s.setChannel i x).ring = s.ring := rfl
@[simp] theorem State.setChannel_reply (s : State) (i : Fin 128) (x : Channel) : (s.setChannel i x).reply = s.reply := rfl
@[simp] theorem State.setChannel_windows (s : State) (i : Fin 128) (x : Channel) : (s.setChannel i x).windows = s.windows := rfl
@[simp] theorem State.setChannel_lowHalf (s : State) (i : Fin 128) (x : Channel) : (s.setChannel i x).lowHalf = s.lowHalf := rfl
@[simp] theorem State.setChannel_channels (s : State) (i : Fin 128) (x : Channel) : (s.setChannel i x).channels = s.channels.set i x := rfl
@[simp] theorem State.setChannel_curves (s : State) (i : Fin 128) (x : Channel) : (s.setChannel i x).curves = s.curves := rfl
@[simp] theorem State.setChannel_limits (s : State) (i : Fin 128) (x : Channel) : (s.setChannel i x).limits = s.limits := rfl
@[simp] theorem State.setChannel_sects (s : State) (i : Fin 128) (x : Channel) : (s.setChannel i x).sects = s.sects := rfl
@[simp] theorem State.setChannel_power (s : State) (i : Fin 128) (x : Channel) : (s.setChannel i x).power = s.power := rfl
@[simp] theorem State.setChannel_yawCfg (s : State) (i : Fin 128) (x : Channel) : (s.setChannel i x).yawCfg = s.yawCfg := rfl
@[simp] theorem State.setChannel_yaw (s : State) (i : Fin 128) (x : Channel) : (s.setChannel i x).yaw = s.yaw := rfl
@[simp] theorem State.setChannel_coolCfg (s : State) (i : Fin 128) (x : Channel) : (s.setChannel i x).coolCfg = s.coolCfg := rfl
@[simp] theorem State.setChannel_cool (s : State) (i : Fin 128) (x : Channel) : (s.setChannel i x).cool = s.cool := rfl
@[simp] theorem State.setChannel_pumps (s : State) (i : Fin 128) (x : Channel) : (s.setChannel i x).pumps = s.pumps := rfl
@[simp] theorem State.setChannel_causes (s : State) (i : Fin 128) (x : Channel) : (s.setChannel i x).causes = s.causes := rfl
@[simp] theorem State.setChannel_reports (s : State) (i : Fin 128) (x : Channel) : (s.setChannel i x).reports = s.reports := rfl
@[simp] theorem State.setChannel_sup (s : State) (i : Fin 128) (x : Channel) : (s.setChannel i x).sup = s.sup := rfl
@[simp] theorem State.setChannel_lines (s : State) (i : Fin 128) (x : Channel) : (s.setChannel i x).lines = s.lines := rfl
@[simp] theorem State.setChannel_plan (s : State) (i : Fin 128) (x : Channel) : (s.setChannel i x).plan = s.plan := rfl
@[simp] theorem State.setChannel_choices (s : State) (i : Fin 128) (x : Channel) : (s.setChannel i x).choices = s.choices := rfl
@[simp] theorem State.setChannel_choiceNo (s : State) (i : Fin 128) (x : Channel) : (s.setChannel i x).choiceNo = s.choiceNo := rfl
@[simp] theorem State.setChannel_pending (s : State) (i : Fin 128) (x : Channel) : (s.setChannel i x).pending = s.pending := rfl

theorem State.setChannel_at (s : State) (i : Fin 128) (x : Channel) : (s.setChannel i x).channels[i] = x := by simp

theorem State.setChannel_at_ne (s : State) (i j : Fin 128) (x : Channel) (h : j ≠ i) :
    (s.setChannel i x).channels[j] = s.channels[j] := by
  have : (i : Nat) ≠ j := fun e => h (Fin.ext e.symm)
  simp [this]

/-! `State.setWindow` -/

@[simp] theorem State.setWindow_ring (s : State) (i : Fin 32) (x : Window) : (s.setWindow i x).ring = s.ring := rfl
@[simp] theorem State.setWindow_reply (s : State) (i : Fin 32) (x : Window) : (s.setWindow i x).reply = s.reply := rfl
@[simp] theorem State.setWindow_windows (s : State) (i : Fin 32) (x : Window) : (s.setWindow i x).windows = s.windows.set i x := rfl
@[simp] theorem State.setWindow_lowHalf (s : State) (i : Fin 32) (x : Window) : (s.setWindow i x).lowHalf = s.lowHalf := rfl
@[simp] theorem State.setWindow_channels (s : State) (i : Fin 32) (x : Window) : (s.setWindow i x).channels = s.channels := rfl
@[simp] theorem State.setWindow_curves (s : State) (i : Fin 32) (x : Window) : (s.setWindow i x).curves = s.curves := rfl
@[simp] theorem State.setWindow_limits (s : State) (i : Fin 32) (x : Window) : (s.setWindow i x).limits = s.limits := rfl
@[simp] theorem State.setWindow_sects (s : State) (i : Fin 32) (x : Window) : (s.setWindow i x).sects = s.sects := rfl
@[simp] theorem State.setWindow_power (s : State) (i : Fin 32) (x : Window) : (s.setWindow i x).power = s.power := rfl
@[simp] theorem State.setWindow_yawCfg (s : State) (i : Fin 32) (x : Window) : (s.setWindow i x).yawCfg = s.yawCfg := rfl
@[simp] theorem State.setWindow_yaw (s : State) (i : Fin 32) (x : Window) : (s.setWindow i x).yaw = s.yaw := rfl
@[simp] theorem State.setWindow_coolCfg (s : State) (i : Fin 32) (x : Window) : (s.setWindow i x).coolCfg = s.coolCfg := rfl
@[simp] theorem State.setWindow_cool (s : State) (i : Fin 32) (x : Window) : (s.setWindow i x).cool = s.cool := rfl
@[simp] theorem State.setWindow_pumps (s : State) (i : Fin 32) (x : Window) : (s.setWindow i x).pumps = s.pumps := rfl
@[simp] theorem State.setWindow_causes (s : State) (i : Fin 32) (x : Window) : (s.setWindow i x).causes = s.causes := rfl
@[simp] theorem State.setWindow_reports (s : State) (i : Fin 32) (x : Window) : (s.setWindow i x).reports = s.reports := rfl
@[simp] theorem State.setWindow_sup (s : State) (i : Fin 32) (x : Window) : (s.setWindow i x).sup = s.sup := rfl
@[simp] theorem State.setWindow_lines (s : State) (i : Fin 32) (x : Window) : (s.setWindow i x).lines = s.lines := rfl
@[simp] theorem State.setWindow_plan (s : State) (i : Fin 32) (x : Window) : (s.setWindow i x).plan = s.plan := rfl
@[simp] theorem State.setWindow_choices (s : State) (i : Fin 32) (x : Window) : (s.setWindow i x).choices = s.choices := rfl
@[simp] theorem State.setWindow_choiceNo (s : State) (i : Fin 32) (x : Window) : (s.setWindow i x).choiceNo = s.choiceNo := rfl
@[simp] theorem State.setWindow_pending (s : State) (i : Fin 32) (x : Window) : (s.setWindow i x).pending = s.pending := rfl

theorem State.setWindow_at (s : State) (i : Fin 32) (x : Window) : (s.setWindow i x).windows[i] = x := by simp

theorem State.setWindow_at_ne (s : State) (i j : Fin 32) (x : Window) (h : j ≠ i) :
    (s.setWindow i x).windows[j] = s.windows[j] := by
  have : (i : Nat) ≠ j := fun e => h (Fin.ext e.symm)
  simp [this]

/-! `State.setCurve` -/

@[simp] theorem State.setCurve_ring (s : State) (i : Fin 5) (x : Curve) : (s.setCurve i x).ring = s.ring := rfl
@[simp] theorem State.setCurve_reply (s : State) (i : Fin 5) (x : Curve) : (s.setCurve i x).reply = s.reply := rfl
@[simp] theorem State.setCurve_windows (s : State) (i : Fin 5) (x : Curve) : (s.setCurve i x).windows = s.windows := rfl
@[simp] theorem State.setCurve_lowHalf (s : State) (i : Fin 5) (x : Curve) : (s.setCurve i x).lowHalf = s.lowHalf := rfl
@[simp] theorem State.setCurve_channels (s : State) (i : Fin 5) (x : Curve) : (s.setCurve i x).channels = s.channels := rfl
@[simp] theorem State.setCurve_curves (s : State) (i : Fin 5) (x : Curve) : (s.setCurve i x).curves = s.curves.set i x := rfl
@[simp] theorem State.setCurve_limits (s : State) (i : Fin 5) (x : Curve) : (s.setCurve i x).limits = s.limits := rfl
@[simp] theorem State.setCurve_sects (s : State) (i : Fin 5) (x : Curve) : (s.setCurve i x).sects = s.sects := rfl
@[simp] theorem State.setCurve_power (s : State) (i : Fin 5) (x : Curve) : (s.setCurve i x).power = s.power := rfl
@[simp] theorem State.setCurve_yawCfg (s : State) (i : Fin 5) (x : Curve) : (s.setCurve i x).yawCfg = s.yawCfg := rfl
@[simp] theorem State.setCurve_yaw (s : State) (i : Fin 5) (x : Curve) : (s.setCurve i x).yaw = s.yaw := rfl
@[simp] theorem State.setCurve_coolCfg (s : State) (i : Fin 5) (x : Curve) : (s.setCurve i x).coolCfg = s.coolCfg := rfl
@[simp] theorem State.setCurve_cool (s : State) (i : Fin 5) (x : Curve) : (s.setCurve i x).cool = s.cool := rfl
@[simp] theorem State.setCurve_pumps (s : State) (i : Fin 5) (x : Curve) : (s.setCurve i x).pumps = s.pumps := rfl
@[simp] theorem State.setCurve_causes (s : State) (i : Fin 5) (x : Curve) : (s.setCurve i x).causes = s.causes := rfl
@[simp] theorem State.setCurve_reports (s : State) (i : Fin 5) (x : Curve) : (s.setCurve i x).reports = s.reports := rfl
@[simp] theorem State.setCurve_sup (s : State) (i : Fin 5) (x : Curve) : (s.setCurve i x).sup = s.sup := rfl
@[simp] theorem State.setCurve_lines (s : State) (i : Fin 5) (x : Curve) : (s.setCurve i x).lines = s.lines := rfl
@[simp] theorem State.setCurve_plan (s : State) (i : Fin 5) (x : Curve) : (s.setCurve i x).plan = s.plan := rfl
@[simp] theorem State.setCurve_choices (s : State) (i : Fin 5) (x : Curve) : (s.setCurve i x).choices = s.choices := rfl
@[simp] theorem State.setCurve_choiceNo (s : State) (i : Fin 5) (x : Curve) : (s.setCurve i x).choiceNo = s.choiceNo := rfl
@[simp] theorem State.setCurve_pending (s : State) (i : Fin 5) (x : Curve) : (s.setCurve i x).pending = s.pending := rfl

theorem State.setCurve_at (s : State) (i : Fin 5) (x : Curve) : (s.setCurve i x).curves[i] = x := by simp

theorem State.setCurve_at_ne (s : State) (i j : Fin 5) (x : Curve) (h : j ≠ i) :
    (s.setCurve i x).curves[j] = s.curves[j] := by
  have : (i : Nat) ≠ j := fun e => h (Fin.ext e.symm)
  simp [this]

/-! `State.setLimit` -/

@[simp] theorem State.setLimit_ring (s : State) (i : Fin 96) (x : Limit) : (s.setLimit i x).ring = s.ring := rfl
@[simp] theorem State.setLimit_reply (s : State) (i : Fin 96) (x : Limit) : (s.setLimit i x).reply = s.reply := rfl
@[simp] theorem State.setLimit_windows (s : State) (i : Fin 96) (x : Limit) : (s.setLimit i x).windows = s.windows := rfl
@[simp] theorem State.setLimit_lowHalf (s : State) (i : Fin 96) (x : Limit) : (s.setLimit i x).lowHalf = s.lowHalf := rfl
@[simp] theorem State.setLimit_channels (s : State) (i : Fin 96) (x : Limit) : (s.setLimit i x).channels = s.channels := rfl
@[simp] theorem State.setLimit_curves (s : State) (i : Fin 96) (x : Limit) : (s.setLimit i x).curves = s.curves := rfl
@[simp] theorem State.setLimit_limits (s : State) (i : Fin 96) (x : Limit) : (s.setLimit i x).limits = s.limits.set i x := rfl
@[simp] theorem State.setLimit_sects (s : State) (i : Fin 96) (x : Limit) : (s.setLimit i x).sects = s.sects := rfl
@[simp] theorem State.setLimit_power (s : State) (i : Fin 96) (x : Limit) : (s.setLimit i x).power = s.power := rfl
@[simp] theorem State.setLimit_yawCfg (s : State) (i : Fin 96) (x : Limit) : (s.setLimit i x).yawCfg = s.yawCfg := rfl
@[simp] theorem State.setLimit_yaw (s : State) (i : Fin 96) (x : Limit) : (s.setLimit i x).yaw = s.yaw := rfl
@[simp] theorem State.setLimit_coolCfg (s : State) (i : Fin 96) (x : Limit) : (s.setLimit i x).coolCfg = s.coolCfg := rfl
@[simp] theorem State.setLimit_cool (s : State) (i : Fin 96) (x : Limit) : (s.setLimit i x).cool = s.cool := rfl
@[simp] theorem State.setLimit_pumps (s : State) (i : Fin 96) (x : Limit) : (s.setLimit i x).pumps = s.pumps := rfl
@[simp] theorem State.setLimit_causes (s : State) (i : Fin 96) (x : Limit) : (s.setLimit i x).causes = s.causes := rfl
@[simp] theorem State.setLimit_reports (s : State) (i : Fin 96) (x : Limit) : (s.setLimit i x).reports = s.reports := rfl
@[simp] theorem State.setLimit_sup (s : State) (i : Fin 96) (x : Limit) : (s.setLimit i x).sup = s.sup := rfl
@[simp] theorem State.setLimit_lines (s : State) (i : Fin 96) (x : Limit) : (s.setLimit i x).lines = s.lines := rfl
@[simp] theorem State.setLimit_plan (s : State) (i : Fin 96) (x : Limit) : (s.setLimit i x).plan = s.plan := rfl
@[simp] theorem State.setLimit_choices (s : State) (i : Fin 96) (x : Limit) : (s.setLimit i x).choices = s.choices := rfl
@[simp] theorem State.setLimit_choiceNo (s : State) (i : Fin 96) (x : Limit) : (s.setLimit i x).choiceNo = s.choiceNo := rfl
@[simp] theorem State.setLimit_pending (s : State) (i : Fin 96) (x : Limit) : (s.setLimit i x).pending = s.pending := rfl

theorem State.setLimit_at (s : State) (i : Fin 96) (x : Limit) : (s.setLimit i x).limits[i] = x := by simp

theorem State.setLimit_at_ne (s : State) (i j : Fin 96) (x : Limit) (h : j ≠ i) :
    (s.setLimit i x).limits[j] = s.limits[j] := by
  have : (i : Nat) ≠ j := fun e => h (Fin.ext e.symm)
  simp [this]

/-! `State.setSect` -/

@[simp] theorem State.setSect_ring (s : State) (i : Fin 6) (x : Sect) : (s.setSect i x).ring = s.ring := rfl
@[simp] theorem State.setSect_reply (s : State) (i : Fin 6) (x : Sect) : (s.setSect i x).reply = s.reply := rfl
@[simp] theorem State.setSect_windows (s : State) (i : Fin 6) (x : Sect) : (s.setSect i x).windows = s.windows := rfl
@[simp] theorem State.setSect_lowHalf (s : State) (i : Fin 6) (x : Sect) : (s.setSect i x).lowHalf = s.lowHalf := rfl
@[simp] theorem State.setSect_channels (s : State) (i : Fin 6) (x : Sect) : (s.setSect i x).channels = s.channels := rfl
@[simp] theorem State.setSect_curves (s : State) (i : Fin 6) (x : Sect) : (s.setSect i x).curves = s.curves := rfl
@[simp] theorem State.setSect_limits (s : State) (i : Fin 6) (x : Sect) : (s.setSect i x).limits = s.limits := rfl
@[simp] theorem State.setSect_sects (s : State) (i : Fin 6) (x : Sect) : (s.setSect i x).sects = s.sects.set i x := rfl
@[simp] theorem State.setSect_power (s : State) (i : Fin 6) (x : Sect) : (s.setSect i x).power = s.power := rfl
@[simp] theorem State.setSect_yawCfg (s : State) (i : Fin 6) (x : Sect) : (s.setSect i x).yawCfg = s.yawCfg := rfl
@[simp] theorem State.setSect_yaw (s : State) (i : Fin 6) (x : Sect) : (s.setSect i x).yaw = s.yaw := rfl
@[simp] theorem State.setSect_coolCfg (s : State) (i : Fin 6) (x : Sect) : (s.setSect i x).coolCfg = s.coolCfg := rfl
@[simp] theorem State.setSect_cool (s : State) (i : Fin 6) (x : Sect) : (s.setSect i x).cool = s.cool := rfl
@[simp] theorem State.setSect_pumps (s : State) (i : Fin 6) (x : Sect) : (s.setSect i x).pumps = s.pumps := rfl
@[simp] theorem State.setSect_causes (s : State) (i : Fin 6) (x : Sect) : (s.setSect i x).causes = s.causes := rfl
@[simp] theorem State.setSect_reports (s : State) (i : Fin 6) (x : Sect) : (s.setSect i x).reports = s.reports := rfl
@[simp] theorem State.setSect_sup (s : State) (i : Fin 6) (x : Sect) : (s.setSect i x).sup = s.sup := rfl
@[simp] theorem State.setSect_lines (s : State) (i : Fin 6) (x : Sect) : (s.setSect i x).lines = s.lines := rfl
@[simp] theorem State.setSect_plan (s : State) (i : Fin 6) (x : Sect) : (s.setSect i x).plan = s.plan := rfl
@[simp] theorem State.setSect_choices (s : State) (i : Fin 6) (x : Sect) : (s.setSect i x).choices = s.choices := rfl
@[simp] theorem State.setSect_choiceNo (s : State) (i : Fin 6) (x : Sect) : (s.setSect i x).choiceNo = s.choiceNo := rfl
@[simp] theorem State.setSect_pending (s : State) (i : Fin 6) (x : Sect) : (s.setSect i x).pending = s.pending := rfl

theorem State.setSect_at (s : State) (i : Fin 6) (x : Sect) : (s.setSect i x).sects[i] = x := by simp

theorem State.setSect_at_ne (s : State) (i j : Fin 6) (x : Sect) (h : j ≠ i) :
    (s.setSect i x).sects[j] = s.sects[j] := by
  have : (i : Nat) ≠ j := fun e => h (Fin.ext e.symm)
  simp [this]

/-! `State.setPump` -/

@[simp] theorem State.setPump_ring (s : State) (i : Fin 3) (x : Pump) : (s.setPump i x).ring = s.ring := rfl
@[simp] theorem State.setPump_reply (s : State) (i : Fin 3) (x : Pump) : (s.setPump i x).reply = s.reply := rfl
@[simp] theorem State.setPump_windows (s : State) (i : Fin 3) (x : Pump) : (s.setPump i x).windows = s.windows := rfl
@[simp] theorem State.setPump_lowHalf (s : State) (i : Fin 3) (x : Pump) : (s.setPump i x).lowHalf = s.lowHalf := rfl
@[simp] theorem State.setPump_channels (s : State) (i : Fin 3) (x : Pump) : (s.setPump i x).channels = s.channels := rfl
@[simp] theorem State.setPump_curves (s : State) (i : Fin 3) (x : Pump) : (s.setPump i x).curves = s.curves := rfl
@[simp] theorem State.setPump_limits (s : State) (i : Fin 3) (x : Pump) : (s.setPump i x).limits = s.limits := rfl
@[simp] theorem State.setPump_sects (s : State) (i : Fin 3) (x : Pump) : (s.setPump i x).sects = s.sects := rfl
@[simp] theorem State.setPump_power (s : State) (i : Fin 3) (x : Pump) : (s.setPump i x).power = s.power := rfl
@[simp] theorem State.setPump_yawCfg (s : State) (i : Fin 3) (x : Pump) : (s.setPump i x).yawCfg = s.yawCfg := rfl
@[simp] theorem State.setPump_yaw (s : State) (i : Fin 3) (x : Pump) : (s.setPump i x).yaw = s.yaw := rfl
@[simp] theorem State.setPump_coolCfg (s : State) (i : Fin 3) (x : Pump) : (s.setPump i x).coolCfg = s.coolCfg := rfl
@[simp] theorem State.setPump_cool (s : State) (i : Fin 3) (x : Pump) : (s.setPump i x).cool = s.cool := rfl
@[simp] theorem State.setPump_pumps (s : State) (i : Fin 3) (x : Pump) : (s.setPump i x).pumps = s.pumps.set i x := rfl
@[simp] theorem State.setPump_causes (s : State) (i : Fin 3) (x : Pump) : (s.setPump i x).causes = s.causes := rfl
@[simp] theorem State.setPump_reports (s : State) (i : Fin 3) (x : Pump) : (s.setPump i x).reports = s.reports := rfl
@[simp] theorem State.setPump_sup (s : State) (i : Fin 3) (x : Pump) : (s.setPump i x).sup = s.sup := rfl
@[simp] theorem State.setPump_lines (s : State) (i : Fin 3) (x : Pump) : (s.setPump i x).lines = s.lines := rfl
@[simp] theorem State.setPump_plan (s : State) (i : Fin 3) (x : Pump) : (s.setPump i x).plan = s.plan := rfl
@[simp] theorem State.setPump_choices (s : State) (i : Fin 3) (x : Pump) : (s.setPump i x).choices = s.choices := rfl
@[simp] theorem State.setPump_choiceNo (s : State) (i : Fin 3) (x : Pump) : (s.setPump i x).choiceNo = s.choiceNo := rfl
@[simp] theorem State.setPump_pending (s : State) (i : Fin 3) (x : Pump) : (s.setPump i x).pending = s.pending := rfl

theorem State.setPump_at (s : State) (i : Fin 3) (x : Pump) : (s.setPump i x).pumps[i] = x := by simp

theorem State.setPump_at_ne (s : State) (i j : Fin 3) (x : Pump) (h : j ≠ i) :
    (s.setPump i x).pumps[j] = s.pumps[j] := by
  have : (i : Nat) ≠ j := fun e => h (Fin.ext e.symm)
  simp [this]

/-! `State.setCause` -/

@[simp] theorem State.setCause_ring (s : State) (i : Fin 128) (x : Cause) : (s.setCause i x).ring = s.ring := rfl
@[simp] theorem State.setCause_reply (s : State) (i : Fin 128) (x : Cause) : (s.setCause i x).reply = s.reply := rfl
@[simp] theorem State.setCause_windows (s : State) (i : Fin 128) (x : Cause) : (s.setCause i x).windows = s.windows := rfl
@[simp] theorem State.setCause_lowHalf (s : State) (i : Fin 128) (x : Cause) : (s.setCause i x).lowHalf = s.lowHalf := rfl
@[simp] theorem State.setCause_channels (s : State) (i : Fin 128) (x : Cause) : (s.setCause i x).channels = s.channels := rfl
@[simp] theorem State.setCause_curves (s : State) (i : Fin 128) (x : Cause) : (s.setCause i x).curves = s.curves := rfl
@[simp] theorem State.setCause_limits (s : State) (i : Fin 128) (x : Cause) : (s.setCause i x).limits = s.limits := rfl
@[simp] theorem State.setCause_sects (s : State) (i : Fin 128) (x : Cause) : (s.setCause i x).sects = s.sects := rfl
@[simp] theorem State.setCause_power (s : State) (i : Fin 128) (x : Cause) : (s.setCause i x).power = s.power := rfl
@[simp] theorem State.setCause_yawCfg (s : State) (i : Fin 128) (x : Cause) : (s.setCause i x).yawCfg = s.yawCfg := rfl
@[simp] theorem State.setCause_yaw (s : State) (i : Fin 128) (x : Cause) : (s.setCause i x).yaw = s.yaw := rfl
@[simp] theorem State.setCause_coolCfg (s : State) (i : Fin 128) (x : Cause) : (s.setCause i x).coolCfg = s.coolCfg := rfl
@[simp] theorem State.setCause_cool (s : State) (i : Fin 128) (x : Cause) : (s.setCause i x).cool = s.cool := rfl
@[simp] theorem State.setCause_pumps (s : State) (i : Fin 128) (x : Cause) : (s.setCause i x).pumps = s.pumps := rfl
@[simp] theorem State.setCause_causes (s : State) (i : Fin 128) (x : Cause) : (s.setCause i x).causes = s.causes.set i x := rfl
@[simp] theorem State.setCause_reports (s : State) (i : Fin 128) (x : Cause) : (s.setCause i x).reports = s.reports := rfl
@[simp] theorem State.setCause_sup (s : State) (i : Fin 128) (x : Cause) : (s.setCause i x).sup = s.sup := rfl
@[simp] theorem State.setCause_lines (s : State) (i : Fin 128) (x : Cause) : (s.setCause i x).lines = s.lines := rfl
@[simp] theorem State.setCause_plan (s : State) (i : Fin 128) (x : Cause) : (s.setCause i x).plan = s.plan := rfl
@[simp] theorem State.setCause_choices (s : State) (i : Fin 128) (x : Cause) : (s.setCause i x).choices = s.choices := rfl
@[simp] theorem State.setCause_choiceNo (s : State) (i : Fin 128) (x : Cause) : (s.setCause i x).choiceNo = s.choiceNo := rfl
@[simp] theorem State.setCause_pending (s : State) (i : Fin 128) (x : Cause) : (s.setCause i x).pending = s.pending := rfl

theorem State.setCause_at (s : State) (i : Fin 128) (x : Cause) : (s.setCause i x).causes[i] = x := by simp

theorem State.setCause_at_ne (s : State) (i j : Fin 128) (x : Cause) (h : j ≠ i) :
    (s.setCause i x).causes[j] = s.causes[j] := by
  have : (i : Nat) ≠ j := fun e => h (Fin.ext e.symm)
  simp [this]

/-! `State.setPlan` -/

@[simp] theorem State.setPlan_ring (s : State) (i : Fin 16) (x : PlanEntry) : (s.setPlan i x).ring = s.ring := rfl
@[simp] theorem State.setPlan_reply (s : State) (i : Fin 16) (x : PlanEntry) : (s.setPlan i x).reply = s.reply := rfl
@[simp] theorem State.setPlan_windows (s : State) (i : Fin 16) (x : PlanEntry) : (s.setPlan i x).windows = s.windows := rfl
@[simp] theorem State.setPlan_lowHalf (s : State) (i : Fin 16) (x : PlanEntry) : (s.setPlan i x).lowHalf = s.lowHalf := rfl
@[simp] theorem State.setPlan_channels (s : State) (i : Fin 16) (x : PlanEntry) : (s.setPlan i x).channels = s.channels := rfl
@[simp] theorem State.setPlan_curves (s : State) (i : Fin 16) (x : PlanEntry) : (s.setPlan i x).curves = s.curves := rfl
@[simp] theorem State.setPlan_limits (s : State) (i : Fin 16) (x : PlanEntry) : (s.setPlan i x).limits = s.limits := rfl
@[simp] theorem State.setPlan_sects (s : State) (i : Fin 16) (x : PlanEntry) : (s.setPlan i x).sects = s.sects := rfl
@[simp] theorem State.setPlan_power (s : State) (i : Fin 16) (x : PlanEntry) : (s.setPlan i x).power = s.power := rfl
@[simp] theorem State.setPlan_yawCfg (s : State) (i : Fin 16) (x : PlanEntry) : (s.setPlan i x).yawCfg = s.yawCfg := rfl
@[simp] theorem State.setPlan_yaw (s : State) (i : Fin 16) (x : PlanEntry) : (s.setPlan i x).yaw = s.yaw := rfl
@[simp] theorem State.setPlan_coolCfg (s : State) (i : Fin 16) (x : PlanEntry) : (s.setPlan i x).coolCfg = s.coolCfg := rfl
@[simp] theorem State.setPlan_cool (s : State) (i : Fin 16) (x : PlanEntry) : (s.setPlan i x).cool = s.cool := rfl
@[simp] theorem State.setPlan_pumps (s : State) (i : Fin 16) (x : PlanEntry) : (s.setPlan i x).pumps = s.pumps := rfl
@[simp] theorem State.setPlan_causes (s : State) (i : Fin 16) (x : PlanEntry) : (s.setPlan i x).causes = s.causes := rfl
@[simp] theorem State.setPlan_reports (s : State) (i : Fin 16) (x : PlanEntry) : (s.setPlan i x).reports = s.reports := rfl
@[simp] theorem State.setPlan_sup (s : State) (i : Fin 16) (x : PlanEntry) : (s.setPlan i x).sup = s.sup := rfl
@[simp] theorem State.setPlan_lines (s : State) (i : Fin 16) (x : PlanEntry) : (s.setPlan i x).lines = s.lines := rfl
@[simp] theorem State.setPlan_plan (s : State) (i : Fin 16) (x : PlanEntry) : (s.setPlan i x).plan = s.plan.set i x := rfl
@[simp] theorem State.setPlan_choices (s : State) (i : Fin 16) (x : PlanEntry) : (s.setPlan i x).choices = s.choices := rfl
@[simp] theorem State.setPlan_choiceNo (s : State) (i : Fin 16) (x : PlanEntry) : (s.setPlan i x).choiceNo = s.choiceNo := rfl
@[simp] theorem State.setPlan_pending (s : State) (i : Fin 16) (x : PlanEntry) : (s.setPlan i x).pending = s.pending := rfl

theorem State.setPlan_at (s : State) (i : Fin 16) (x : PlanEntry) : (s.setPlan i x).plan[i] = x := by simp

theorem State.setPlan_at_ne (s : State) (i j : Fin 16) (x : PlanEntry) (h : j ≠ i) :
    (s.setPlan i x).plan[j] = s.plan[j] := by
  have : (i : Nat) ≠ j := fun e => h (Fin.ext e.symm)
  simp [this]

/-! `putYaw` -/

@[simp] theorem putYaw_ring (y : Yaw) (s : State) : (putYaw y s).ring = s.ring := rfl
@[simp] theorem putYaw_reply (y : Yaw) (s : State) : (putYaw y s).reply = s.reply := rfl
@[simp] theorem putYaw_windows (y : Yaw) (s : State) : (putYaw y s).windows = s.windows := rfl
@[simp] theorem putYaw_lowHalf (y : Yaw) (s : State) : (putYaw y s).lowHalf = s.lowHalf := rfl
@[simp] theorem putYaw_channels (y : Yaw) (s : State) : (putYaw y s).channels = s.channels := rfl
@[simp] theorem putYaw_curves (y : Yaw) (s : State) : (putYaw y s).curves = s.curves := rfl
@[simp] theorem putYaw_limits (y : Yaw) (s : State) : (putYaw y s).limits = s.limits := rfl
@[simp] theorem putYaw_sects (y : Yaw) (s : State) : (putYaw y s).sects = s.sects := rfl
@[simp] theorem putYaw_power (y : Yaw) (s : State) : (putYaw y s).power = s.power := rfl
@[simp] theorem putYaw_yawCfg (y : Yaw) (s : State) : (putYaw y s).yawCfg = s.yawCfg := rfl
@[simp] theorem putYaw_yaw (y : Yaw) (s : State) : (putYaw y s).yaw = y := rfl
@[simp] theorem putYaw_coolCfg (y : Yaw) (s : State) : (putYaw y s).coolCfg = s.coolCfg := rfl
@[simp] theorem putYaw_cool (y : Yaw) (s : State) : (putYaw y s).cool = s.cool := rfl
@[simp] theorem putYaw_pumps (y : Yaw) (s : State) : (putYaw y s).pumps = s.pumps := rfl
@[simp] theorem putYaw_causes (y : Yaw) (s : State) : (putYaw y s).causes = s.causes := rfl
@[simp] theorem putYaw_reports (y : Yaw) (s : State) : (putYaw y s).reports = s.reports := rfl
@[simp] theorem putYaw_sup (y : Yaw) (s : State) : (putYaw y s).sup = s.sup := rfl
@[simp] theorem putYaw_lines (y : Yaw) (s : State) :
    (putYaw y s).lines = { s.lines with brakeHold := brakeApplied y.mode } := rfl
@[simp] theorem putYaw_plan (y : Yaw) (s : State) : (putYaw y s).plan = s.plan := rfl
@[simp] theorem putYaw_choices (y : Yaw) (s : State) : (putYaw y s).choices = s.choices := rfl
@[simp] theorem putYaw_choiceNo (y : Yaw) (s : State) : (putYaw y s).choiceNo = s.choiceNo := rfl
@[simp] theorem putYaw_pending (y : Yaw) (s : State) : (putYaw y s).pending = s.pending := rfl

/-! `putNacelle` -/

@[simp] theorem putNacelle_ring (n : Nacelle) (r : StopReason) (s : State) :
    (putNacelle n r s).ring = s.ring := rfl
@[simp] theorem putNacelle_reply (n : Nacelle) (r : StopReason) (s : State) :
    (putNacelle n r s).reply = s.reply := rfl
@[simp] theorem putNacelle_windows (n : Nacelle) (r : StopReason) (s : State) :
    (putNacelle n r s).windows = s.windows := rfl
@[simp] theorem putNacelle_lowHalf (n : Nacelle) (r : StopReason) (s : State) :
    (putNacelle n r s).lowHalf = s.lowHalf := rfl
@[simp] theorem putNacelle_channels (n : Nacelle) (r : StopReason) (s : State) :
    (putNacelle n r s).channels = s.channels := rfl
@[simp] theorem putNacelle_curves (n : Nacelle) (r : StopReason) (s : State) :
    (putNacelle n r s).curves = s.curves := rfl
@[simp] theorem putNacelle_limits (n : Nacelle) (r : StopReason) (s : State) :
    (putNacelle n r s).limits = s.limits := rfl
@[simp] theorem putNacelle_sects (n : Nacelle) (r : StopReason) (s : State) :
    (putNacelle n r s).sects = s.sects := rfl
@[simp] theorem putNacelle_power (n : Nacelle) (r : StopReason) (s : State) :
    (putNacelle n r s).power = s.power := rfl
@[simp] theorem putNacelle_yawCfg (n : Nacelle) (r : StopReason) (s : State) :
    (putNacelle n r s).yawCfg = s.yawCfg := rfl
@[simp] theorem putNacelle_yaw (n : Nacelle) (r : StopReason) (s : State) :
    (putNacelle n r s).yaw = s.yaw := rfl
@[simp] theorem putNacelle_coolCfg (n : Nacelle) (r : StopReason) (s : State) :
    (putNacelle n r s).coolCfg = s.coolCfg := rfl
@[simp] theorem putNacelle_cool (n : Nacelle) (r : StopReason) (s : State) :
    (putNacelle n r s).cool = s.cool := rfl
@[simp] theorem putNacelle_pumps (n : Nacelle) (r : StopReason) (s : State) :
    (putNacelle n r s).pumps = s.pumps := rfl
@[simp] theorem putNacelle_causes (n : Nacelle) (r : StopReason) (s : State) :
    (putNacelle n r s).causes = s.causes := rfl
@[simp] theorem putNacelle_reports (n : Nacelle) (r : StopReason) (s : State) :
    (putNacelle n r s).reports = s.reports := rfl
@[simp] theorem putNacelle_sup (n : Nacelle) (r : StopReason) (s : State) :
    (putNacelle n r s).sup = { s.sup with nacelle := n, reason := r } := rfl
@[simp] theorem putNacelle_lines (n : Nacelle) (r : StopReason) (s : State) :
    (putNacelle n r s).lines = { s.lines with stopOut := decide (n ≠ .operating) } := rfl
@[simp] theorem putNacelle_plan (n : Nacelle) (r : StopReason) (s : State) :
    (putNacelle n r s).plan = s.plan := rfl
@[simp] theorem putNacelle_choices (n : Nacelle) (r : StopReason) (s : State) :
    (putNacelle n r s).choices = s.choices := rfl
@[simp] theorem putNacelle_choiceNo (n : Nacelle) (r : StopReason) (s : State) :
    (putNacelle n r s).choiceNo = s.choiceNo := rfl
@[simp] theorem putNacelle_pending (n : Nacelle) (r : StopReason) (s : State) :
    (putNacelle n r s).pending = s.pending := rfl

/-! `holdOnline` -/

@[simp] theorem holdOnline_ring (s : State) : (holdOnline s).ring = s.ring := rfl
@[simp] theorem holdOnline_reply (s : State) : (holdOnline s).reply = s.reply := rfl
@[simp] theorem holdOnline_windows (s : State) : (holdOnline s).windows = s.windows := rfl
@[simp] theorem holdOnline_lowHalf (s : State) : (holdOnline s).lowHalf = s.lowHalf := rfl
@[simp] theorem holdOnline_channels (s : State) : (holdOnline s).channels = s.channels := rfl
@[simp] theorem holdOnline_curves (s : State) : (holdOnline s).curves = s.curves := rfl
@[simp] theorem holdOnline_limits (s : State) : (holdOnline s).limits = s.limits := rfl
@[simp] theorem holdOnline_sects (s : State) :
    (holdOnline s).sects = s.sects.map fun x => if x.state = .online then { x with state := .held } else x := rfl
@[simp] theorem holdOnline_power (s : State) : (holdOnline s).power = s.power := rfl
@[simp] theorem holdOnline_yawCfg (s : State) : (holdOnline s).yawCfg = s.yawCfg := rfl
@[simp] theorem holdOnline_yaw (s : State) : (holdOnline s).yaw = s.yaw := rfl
@[simp] theorem holdOnline_coolCfg (s : State) : (holdOnline s).coolCfg = s.coolCfg := rfl
@[simp] theorem holdOnline_cool (s : State) : (holdOnline s).cool = s.cool := rfl
@[simp] theorem holdOnline_pumps (s : State) : (holdOnline s).pumps = s.pumps := rfl
@[simp] theorem holdOnline_causes (s : State) : (holdOnline s).causes = s.causes := rfl
@[simp] theorem holdOnline_reports (s : State) : (holdOnline s).reports = s.reports := rfl
@[simp] theorem holdOnline_sup (s : State) : (holdOnline s).sup = s.sup := rfl
@[simp] theorem holdOnline_lines (s : State) : (holdOnline s).lines = s.lines := rfl
@[simp] theorem holdOnline_plan (s : State) : (holdOnline s).plan = s.plan := rfl
@[simp] theorem holdOnline_choices (s : State) : (holdOnline s).choices = s.choices := rfl
@[simp] theorem holdOnline_choiceNo (s : State) : (holdOnline s).choiceNo = s.choiceNo := rfl
@[simp] theorem holdOnline_pending (s : State) : (holdOnline s).pending = s.pending := rfl

/-! `clearRunEnable` -/

@[simp] theorem clearRunEnable_ring (s : State) : (clearRunEnable s).ring = s.ring := rfl
@[simp] theorem clearRunEnable_reply (s : State) : (clearRunEnable s).reply = s.reply := rfl
@[simp] theorem clearRunEnable_windows (s : State) : (clearRunEnable s).windows = s.windows := rfl
@[simp] theorem clearRunEnable_lowHalf (s : State) : (clearRunEnable s).lowHalf = s.lowHalf := rfl
@[simp] theorem clearRunEnable_channels (s : State) : (clearRunEnable s).channels = s.channels := rfl
@[simp] theorem clearRunEnable_curves (s : State) : (clearRunEnable s).curves = s.curves := rfl
@[simp] theorem clearRunEnable_limits (s : State) : (clearRunEnable s).limits = s.limits := rfl
@[simp] theorem clearRunEnable_sects (s : State) : (clearRunEnable s).sects = s.sects := rfl
@[simp] theorem clearRunEnable_power (s : State) : (clearRunEnable s).power = s.power := rfl
@[simp] theorem clearRunEnable_yawCfg (s : State) : (clearRunEnable s).yawCfg = s.yawCfg := rfl
@[simp] theorem clearRunEnable_yaw (s : State) : (clearRunEnable s).yaw = s.yaw := rfl
@[simp] theorem clearRunEnable_coolCfg (s : State) : (clearRunEnable s).coolCfg = s.coolCfg := rfl
@[simp] theorem clearRunEnable_cool (s : State) : (clearRunEnable s).cool = s.cool := rfl
@[simp] theorem clearRunEnable_pumps (s : State) : (clearRunEnable s).pumps = s.pumps := rfl
@[simp] theorem clearRunEnable_causes (s : State) : (clearRunEnable s).causes = s.causes := rfl
@[simp] theorem clearRunEnable_reports (s : State) : (clearRunEnable s).reports = s.reports := rfl
@[simp] theorem clearRunEnable_sup (s : State) :
    (clearRunEnable s).sup = { s.sup with mode := { s.sup.mode with runEnable := false, altered := s.sup.mode.altered || s.sup.mode.runEnable } } := rfl
@[simp] theorem clearRunEnable_lines (s : State) : (clearRunEnable s).lines = s.lines := rfl
@[simp] theorem clearRunEnable_plan (s : State) : (clearRunEnable s).plan = s.plan := rfl
@[simp] theorem clearRunEnable_choices (s : State) : (clearRunEnable s).choices = s.choices := rfl
@[simp] theorem clearRunEnable_choiceNo (s : State) : (clearRunEnable s).choiceNo = s.choiceNo := rfl
@[simp] theorem clearRunEnable_pending (s : State) : (clearRunEnable s).pending = s.pending := rfl

/-! `clearYawAuto` -/

@[simp] theorem clearYawAuto_ring (s : State) : (clearYawAuto s).ring = s.ring := rfl
@[simp] theorem clearYawAuto_reply (s : State) : (clearYawAuto s).reply = s.reply := rfl
@[simp] theorem clearYawAuto_windows (s : State) : (clearYawAuto s).windows = s.windows := rfl
@[simp] theorem clearYawAuto_lowHalf (s : State) : (clearYawAuto s).lowHalf = s.lowHalf := rfl
@[simp] theorem clearYawAuto_channels (s : State) : (clearYawAuto s).channels = s.channels := rfl
@[simp] theorem clearYawAuto_curves (s : State) : (clearYawAuto s).curves = s.curves := rfl
@[simp] theorem clearYawAuto_limits (s : State) : (clearYawAuto s).limits = s.limits := rfl
@[simp] theorem clearYawAuto_sects (s : State) : (clearYawAuto s).sects = s.sects := rfl
@[simp] theorem clearYawAuto_power (s : State) : (clearYawAuto s).power = s.power := rfl
@[simp] theorem clearYawAuto_yawCfg (s : State) : (clearYawAuto s).yawCfg = s.yawCfg := rfl
@[simp] theorem clearYawAuto_yaw (s : State) : (clearYawAuto s).yaw = s.yaw := rfl
@[simp] theorem clearYawAuto_coolCfg (s : State) : (clearYawAuto s).coolCfg = s.coolCfg := rfl
@[simp] theorem clearYawAuto_cool (s : State) : (clearYawAuto s).cool = s.cool := rfl
@[simp] theorem clearYawAuto_pumps (s : State) : (clearYawAuto s).pumps = s.pumps := rfl
@[simp] theorem clearYawAuto_causes (s : State) : (clearYawAuto s).causes = s.causes := rfl
@[simp] theorem clearYawAuto_reports (s : State) : (clearYawAuto s).reports = s.reports := rfl
@[simp] theorem clearYawAuto_sup (s : State) :
    (clearYawAuto s).sup = { s.sup with mode := { s.sup.mode with yawAuto := false, altered := s.sup.mode.altered || s.sup.mode.yawAuto } } := rfl
@[simp] theorem clearYawAuto_lines (s : State) : (clearYawAuto s).lines = s.lines := rfl
@[simp] theorem clearYawAuto_plan (s : State) : (clearYawAuto s).plan = s.plan := rfl
@[simp] theorem clearYawAuto_choices (s : State) : (clearYawAuto s).choices = s.choices := rfl
@[simp] theorem clearYawAuto_choiceNo (s : State) : (clearYawAuto s).choiceNo = s.choiceNo := rfl
@[simp] theorem clearYawAuto_pending (s : State) : (clearYawAuto s).pending = s.pending := rfl

/-! `prepare` -/

@[simp] theorem prepare_ring (r : Reply) (s : State) : (prepare r s).ring = s.ring := rfl
@[simp] theorem prepare_reply (r : Reply) (s : State) : (prepare r s).reply = some r := rfl
@[simp] theorem prepare_windows (r : Reply) (s : State) : (prepare r s).windows = s.windows := rfl
@[simp] theorem prepare_lowHalf (r : Reply) (s : State) : (prepare r s).lowHalf = s.lowHalf := rfl
@[simp] theorem prepare_channels (r : Reply) (s : State) : (prepare r s).channels = s.channels := rfl
@[simp] theorem prepare_curves (r : Reply) (s : State) : (prepare r s).curves = s.curves := rfl
@[simp] theorem prepare_limits (r : Reply) (s : State) : (prepare r s).limits = s.limits := rfl
@[simp] theorem prepare_sects (r : Reply) (s : State) : (prepare r s).sects = s.sects := rfl
@[simp] theorem prepare_power (r : Reply) (s : State) : (prepare r s).power = s.power := rfl
@[simp] theorem prepare_yawCfg (r : Reply) (s : State) : (prepare r s).yawCfg = s.yawCfg := rfl
@[simp] theorem prepare_yaw (r : Reply) (s : State) : (prepare r s).yaw = s.yaw := rfl
@[simp] theorem prepare_coolCfg (r : Reply) (s : State) : (prepare r s).coolCfg = s.coolCfg := rfl
@[simp] theorem prepare_cool (r : Reply) (s : State) : (prepare r s).cool = s.cool := rfl
@[simp] theorem prepare_pumps (r : Reply) (s : State) : (prepare r s).pumps = s.pumps := rfl
@[simp] theorem prepare_causes (r : Reply) (s : State) : (prepare r s).causes = s.causes := rfl
@[simp] theorem prepare_reports (r : Reply) (s : State) : (prepare r s).reports = s.reports := rfl
@[simp] theorem prepare_sup (r : Reply) (s : State) : (prepare r s).sup = s.sup := rfl
@[simp] theorem prepare_lines (r : Reply) (s : State) : (prepare r s).lines = s.lines := rfl
@[simp] theorem prepare_plan (r : Reply) (s : State) : (prepare r s).plan = s.plan := rfl
@[simp] theorem prepare_choices (r : Reply) (s : State) : (prepare r s).choices = s.choices := rfl
@[simp] theorem prepare_choiceNo (r : Reply) (s : State) : (prepare r s).choiceNo = s.choiceNo := rfl
@[simp] theorem prepare_pending (r : Reply) (s : State) : (prepare r s).pending = s.pending := rfl

/-! `sendNode` -/

@[simp] theorem sendNode_ring (c : Cell) (s : State) :
    (sendNode c s).ring = { s.ring with nodeOut := s.ring.nodeOut ++ [c] } := rfl
@[simp] theorem sendNode_reply (c : Cell) (s : State) : (sendNode c s).reply = s.reply := rfl
@[simp] theorem sendNode_windows (c : Cell) (s : State) : (sendNode c s).windows = s.windows := rfl
@[simp] theorem sendNode_lowHalf (c : Cell) (s : State) : (sendNode c s).lowHalf = s.lowHalf := rfl
@[simp] theorem sendNode_channels (c : Cell) (s : State) : (sendNode c s).channels = s.channels := rfl
@[simp] theorem sendNode_curves (c : Cell) (s : State) : (sendNode c s).curves = s.curves := rfl
@[simp] theorem sendNode_limits (c : Cell) (s : State) : (sendNode c s).limits = s.limits := rfl
@[simp] theorem sendNode_sects (c : Cell) (s : State) : (sendNode c s).sects = s.sects := rfl
@[simp] theorem sendNode_power (c : Cell) (s : State) : (sendNode c s).power = s.power := rfl
@[simp] theorem sendNode_yawCfg (c : Cell) (s : State) : (sendNode c s).yawCfg = s.yawCfg := rfl
@[simp] theorem sendNode_yaw (c : Cell) (s : State) : (sendNode c s).yaw = s.yaw := rfl
@[simp] theorem sendNode_coolCfg (c : Cell) (s : State) : (sendNode c s).coolCfg = s.coolCfg := rfl
@[simp] theorem sendNode_cool (c : Cell) (s : State) : (sendNode c s).cool = s.cool := rfl
@[simp] theorem sendNode_pumps (c : Cell) (s : State) : (sendNode c s).pumps = s.pumps := rfl
@[simp] theorem sendNode_causes (c : Cell) (s : State) : (sendNode c s).causes = s.causes := rfl
@[simp] theorem sendNode_reports (c : Cell) (s : State) : (sendNode c s).reports = s.reports := rfl
@[simp] theorem sendNode_sup (c : Cell) (s : State) : (sendNode c s).sup = s.sup := rfl
@[simp] theorem sendNode_lines (c : Cell) (s : State) : (sendNode c s).lines = s.lines := rfl
@[simp] theorem sendNode_plan (c : Cell) (s : State) : (sendNode c s).plan = s.plan := rfl
@[simp] theorem sendNode_choices (c : Cell) (s : State) : (sendNode c s).choices = s.choices := rfl
@[simp] theorem sendNode_choiceNo (c : Cell) (s : State) : (sendNode c s).choiceNo = s.choiceNo := rfl
@[simp] theorem sendNode_pending (c : Cell) (s : State) : (sendNode c s).pending = s.pending := rfl

/-! `sendTower` -/

@[simp] theorem sendTower_ring (c : Cell) (s : State) :
    (sendTower c s).ring = { s.ring with towerOut := s.ring.towerOut ++ [c] } := rfl
@[simp] theorem sendTower_reply (c : Cell) (s : State) : (sendTower c s).reply = s.reply := rfl
@[simp] theorem sendTower_windows (c : Cell) (s : State) : (sendTower c s).windows = s.windows := rfl
@[simp] theorem sendTower_lowHalf (c : Cell) (s : State) : (sendTower c s).lowHalf = s.lowHalf := rfl
@[simp] theorem sendTower_channels (c : Cell) (s : State) : (sendTower c s).channels = s.channels := rfl
@[simp] theorem sendTower_curves (c : Cell) (s : State) : (sendTower c s).curves = s.curves := rfl
@[simp] theorem sendTower_limits (c : Cell) (s : State) : (sendTower c s).limits = s.limits := rfl
@[simp] theorem sendTower_sects (c : Cell) (s : State) : (sendTower c s).sects = s.sects := rfl
@[simp] theorem sendTower_power (c : Cell) (s : State) : (sendTower c s).power = s.power := rfl
@[simp] theorem sendTower_yawCfg (c : Cell) (s : State) : (sendTower c s).yawCfg = s.yawCfg := rfl
@[simp] theorem sendTower_yaw (c : Cell) (s : State) : (sendTower c s).yaw = s.yaw := rfl
@[simp] theorem sendTower_coolCfg (c : Cell) (s : State) : (sendTower c s).coolCfg = s.coolCfg := rfl
@[simp] theorem sendTower_cool (c : Cell) (s : State) : (sendTower c s).cool = s.cool := rfl
@[simp] theorem sendTower_pumps (c : Cell) (s : State) : (sendTower c s).pumps = s.pumps := rfl
@[simp] theorem sendTower_causes (c : Cell) (s : State) : (sendTower c s).causes = s.causes := rfl
@[simp] theorem sendTower_reports (c : Cell) (s : State) : (sendTower c s).reports = s.reports := rfl
@[simp] theorem sendTower_sup (c : Cell) (s : State) : (sendTower c s).sup = s.sup := rfl
@[simp] theorem sendTower_lines (c : Cell) (s : State) : (sendTower c s).lines = s.lines := rfl
@[simp] theorem sendTower_plan (c : Cell) (s : State) : (sendTower c s).plan = s.plan := rfl
@[simp] theorem sendTower_choices (c : Cell) (s : State) : (sendTower c s).choices = s.choices := rfl
@[simp] theorem sendTower_choiceNo (c : Cell) (s : State) : (sendTower c s).choiceNo = s.choiceNo := rfl
@[simp] theorem sendTower_pending (c : Cell) (s : State) : (sendTower c s).pending = s.pending := rfl

/-! `formFactor` -/

@[simp] theorem formFactor_ring (s : State) : (formFactor s).ring = s.ring := rfl
@[simp] theorem formFactor_reply (s : State) : (formFactor s).reply = s.reply := rfl
@[simp] theorem formFactor_windows (s : State) : (formFactor s).windows = s.windows := rfl
@[simp] theorem formFactor_lowHalf (s : State) : (formFactor s).lowHalf = s.lowHalf := rfl
@[simp] theorem formFactor_channels (s : State) : (formFactor s).channels = s.channels := rfl
@[simp] theorem formFactor_curves (s : State) : (formFactor s).curves = s.curves := rfl
@[simp] theorem formFactor_limits (s : State) : (formFactor s).limits = s.limits := rfl
@[simp] theorem formFactor_sects (s : State) : (formFactor s).sects = s.sects := rfl
@[simp] theorem formFactor_power (s : State) : (formFactor s).power = s.power := rfl
@[simp] theorem formFactor_yawCfg (s : State) : (formFactor s).yawCfg = s.yawCfg := rfl
@[simp] theorem formFactor_yaw (s : State) : (formFactor s).yaw = s.yaw := rfl
@[simp] theorem formFactor_coolCfg (s : State) : (formFactor s).coolCfg = s.coolCfg := rfl
@[simp] theorem formFactor_cool (s : State) :
    (formFactor s).cool = { s.cool with factor := min s.cool.coolantFactor (s.coolCfg.pumpFactor.toList.getD (runningCount s) 0) } := rfl
@[simp] theorem formFactor_pumps (s : State) : (formFactor s).pumps = s.pumps := rfl
@[simp] theorem formFactor_causes (s : State) : (formFactor s).causes = s.causes := rfl
@[simp] theorem formFactor_reports (s : State) : (formFactor s).reports = s.reports := rfl
@[simp] theorem formFactor_sup (s : State) : (formFactor s).sup = s.sup := rfl
@[simp] theorem formFactor_lines (s : State) : (formFactor s).lines = s.lines := rfl
@[simp] theorem formFactor_plan (s : State) : (formFactor s).plan = s.plan := rfl
@[simp] theorem formFactor_choices (s : State) : (formFactor s).choices = s.choices := rfl
@[simp] theorem formFactor_choiceNo (s : State) : (formFactor s).choiceNo = s.choiceNo := rfl
@[simp] theorem formFactor_pending (s : State) : (formFactor s).pending = s.pending := rfl

/-! `rebuildOrder` -/

@[simp] theorem rebuildOrder_ring (s : State) : (rebuildOrder s).ring = s.ring := rfl
@[simp] theorem rebuildOrder_reply (s : State) : (rebuildOrder s).reply = s.reply := rfl
@[simp] theorem rebuildOrder_windows (s : State) : (rebuildOrder s).windows = s.windows := rfl
@[simp] theorem rebuildOrder_lowHalf (s : State) : (rebuildOrder s).lowHalf = s.lowHalf := rfl
@[simp] theorem rebuildOrder_channels (s : State) : (rebuildOrder s).channels = s.channels := rfl
@[simp] theorem rebuildOrder_curves (s : State) : (rebuildOrder s).curves = s.curves := rfl
@[simp] theorem rebuildOrder_limits (s : State) : (rebuildOrder s).limits = s.limits := rfl
@[simp] theorem rebuildOrder_sects (s : State) : (rebuildOrder s).sects = s.sects := rfl
@[simp] theorem rebuildOrder_power (s : State) : (rebuildOrder s).power = s.power := rfl
@[simp] theorem rebuildOrder_yawCfg (s : State) : (rebuildOrder s).yawCfg = s.yawCfg := rfl
@[simp] theorem rebuildOrder_yaw (s : State) : (rebuildOrder s).yaw = s.yaw := rfl
@[simp] theorem rebuildOrder_coolCfg (s : State) : (rebuildOrder s).coolCfg = s.coolCfg := rfl
@[simp] theorem rebuildOrder_cool (s : State) :
    (rebuildOrder s).cool = { s.cool with order := rebuiltOrder s } := rfl
@[simp] theorem rebuildOrder_pumps (s : State) : (rebuildOrder s).pumps = s.pumps := rfl
@[simp] theorem rebuildOrder_causes (s : State) : (rebuildOrder s).causes = s.causes := rfl
@[simp] theorem rebuildOrder_reports (s : State) : (rebuildOrder s).reports = s.reports := rfl
@[simp] theorem rebuildOrder_sup (s : State) : (rebuildOrder s).sup = s.sup := rfl
@[simp] theorem rebuildOrder_lines (s : State) : (rebuildOrder s).lines = s.lines := rfl
@[simp] theorem rebuildOrder_plan (s : State) : (rebuildOrder s).plan = s.plan := rfl
@[simp] theorem rebuildOrder_choices (s : State) : (rebuildOrder s).choices = s.choices := rfl
@[simp] theorem rebuildOrder_choiceNo (s : State) : (rebuildOrder s).choiceNo = s.choiceNo := rfl
@[simp] theorem rebuildOrder_pending (s : State) : (rebuildOrder s).pending = s.pending := rfl

/-! `State.choiceMade` -/

@[simp] theorem State.choiceMade_ring (s : State) : s.choiceMade.ring = s.ring := by
  unfold State.choiceMade; split <;> rfl
@[simp] theorem State.choiceMade_reply (s : State) : s.choiceMade.reply = s.reply := by
  unfold State.choiceMade; split <;> rfl
@[simp] theorem State.choiceMade_windows (s : State) : s.choiceMade.windows = s.windows := by
  unfold State.choiceMade; split <;> rfl
@[simp] theorem State.choiceMade_lowHalf (s : State) : s.choiceMade.lowHalf = s.lowHalf := by
  unfold State.choiceMade; split <;> rfl
@[simp] theorem State.choiceMade_channels (s : State) : s.choiceMade.channels = s.channels := by
  unfold State.choiceMade; split <;> rfl
@[simp] theorem State.choiceMade_curves (s : State) : s.choiceMade.curves = s.curves := by
  unfold State.choiceMade; split <;> rfl
@[simp] theorem State.choiceMade_limits (s : State) : s.choiceMade.limits = s.limits := by
  unfold State.choiceMade; split <;> rfl
@[simp] theorem State.choiceMade_sects (s : State) : s.choiceMade.sects = s.sects := by
  unfold State.choiceMade; split <;> rfl
@[simp] theorem State.choiceMade_power (s : State) : s.choiceMade.power = s.power := by
  unfold State.choiceMade; split <;> rfl
@[simp] theorem State.choiceMade_yawCfg (s : State) : s.choiceMade.yawCfg = s.yawCfg := by
  unfold State.choiceMade; split <;> rfl
@[simp] theorem State.choiceMade_yaw (s : State) : s.choiceMade.yaw = s.yaw := by
  unfold State.choiceMade; split <;> rfl
@[simp] theorem State.choiceMade_coolCfg (s : State) : s.choiceMade.coolCfg = s.coolCfg := by
  unfold State.choiceMade; split <;> rfl
@[simp] theorem State.choiceMade_cool (s : State) : s.choiceMade.cool = s.cool := by
  unfold State.choiceMade; split <;> rfl
@[simp] theorem State.choiceMade_pumps (s : State) : s.choiceMade.pumps = s.pumps := by
  unfold State.choiceMade; split <;> rfl
@[simp] theorem State.choiceMade_causes (s : State) : s.choiceMade.causes = s.causes := by
  unfold State.choiceMade; split <;> rfl
@[simp] theorem State.choiceMade_reports (s : State) : s.choiceMade.reports = s.reports := by
  unfold State.choiceMade; split <;> rfl
@[simp] theorem State.choiceMade_sup (s : State) : s.choiceMade.sup = s.sup := by
  unfold State.choiceMade; split <;> rfl
@[simp] theorem State.choiceMade_lines (s : State) : s.choiceMade.lines = s.lines := by
  unfold State.choiceMade; split <;> rfl
@[simp] theorem State.choiceMade_plan (s : State) : s.choiceMade.plan = s.plan := by
  unfold State.choiceMade; split <;> rfl
@[simp] theorem State.choiceMade_pending (s : State) : s.choiceMade.pending = s.pending := by
  unfold State.choiceMade; split <;> rfl

end Sys2Proof.Machine
end

