-- ==== Sys2Proof/Laws/Ops.lean ====
section
/-! SUPPORT. What each shared operation can do, said once: open orders, rises of causes, the arrivals that one
block makes at another. -/

namespace Sys2Proof.Machine

/-! ### Open orders -/

theorem arrangeWith_perm {α : Type} : ∀ (fuel n : Nat) (l : List α), (arrangeWith fuel n l).Perm l
  | 0, _, _ => .refl _
  | _ + 1, _, [] => .refl _
  | _ + 1, _, [_] => .refl _
  | fuel + 1, n, x :: y :: rest => by
    have hi : n % (x :: y :: rest).length < (x :: y :: rest).length := Nat.mod_lt _ (by simp)
    have h := arrangeWith_perm fuel (n / (x :: y :: rest).length)
      ((x :: y :: rest).eraseIdx (n % (x :: y :: rest).length))
    simp only [arrangeWith]
    refine (h.cons _).trans ?_
    rw [List.getD_eq_getElem _ _ hi]
    exact List.getElem_cons_eraseIdx_perm hi

/-- An order of a list holds each of its elements, as often as the list does. -/
theorem arrange_perm {α : Type} (n : Nat) (l : List α) : (arrange n l).Perm l :=
  arrangeWith_perm _ _ _

@[simp] theorem arrange_length {α : Type} (n : Nat) (l : List α) : (arrange n l).length = l.length :=
  (arrange_perm n l).length_eq

@[simp] theorem mem_arrange {α : Type} (n : Nat) (l : List α) (x : α) : x ∈ arrange n l ↔ x ∈ l :=
  (arrange_perm n l).mem_iff

/-- What every work of a list keeps, and the making of a choice too, the list keeps when its works are taken one
after another. -/
theorem foldl_keeps {α : Type} {P : State → Prop} {f : α → State → State} (l : List α)
    (h : ∀ a ∈ l, ∀ t, P t → P (f a t)) : ∀ s, P s → P (l.foldl (fun t a => f a t) s) := by
  induction l with
  | nil => exact fun _ hs => hs
  | cons a l ih =>
    exact fun s hs => ih (fun b hb => h b (by simp [hb])) _ (h a (by simp) s hs)

/-- What every work keeps, and the making of a choice too, is kept by the works in any order. -/
theorem inOpenOrder_keeps {α : Type} {P : State → Prop} {f : α → State → State} (l : List α) (s : State)
    (hc : ∀ t, P t → P t.choiceMade) (h : ∀ a ∈ l, ∀ t, P t → P (f a t)) (hs : P s) :
    P (inOpenOrder l f s) := by
  match l, h with
  | [], _ => exact hs
  | [a], h => exact h a (by simp) s hs
  | a :: b :: rest, h =>
    exact foldl_keeps _ (fun c hc' t ht => h c ((mem_arrange _ _ _).1 hc') t ht) _ (hc s hs)

/-- What one work of a list brings about in the states that every work keeps to, and every work then keeps, holds
once the works have been taken in any order. -/
theorem inOpenOrder_reaches_of {α : Type} {I P : State → Prop} {f : α → State → State} (l : List α) (s : State)
    {x : α} (hx : x ∈ l) (hs : I s) (hc : ∀ t, I t → I t.choiceMade)
    (hi : ∀ a ∈ l, ∀ t, I t → I (f a t)) (hf : ∀ t, I t → P (f x t))
    (hk : ∀ a ∈ l, ∀ t, I t → P t → P (f a t)) : P (inOpenOrder l f s) := by
  have fold : ∀ (m : List α) (t : State), I t → x ∈ m → (∀ a ∈ m, a ∈ l) →
      P (m.foldl (fun t a => f a t) t) := by
    intro m
    induction m with
    | nil => intro t _ h; cases h
    | cons a m ih =>
      intro t ht h hm
      simp only [List.foldl_cons]
      rcases List.mem_cons.1 h with rfl | h
      · exact (foldl_keeps (P := fun u => I u ∧ P u) m
          (fun b hb u hu => ⟨hi b (hm b (by simp [hb])) u hu.1, hk b (hm b (by simp [hb])) u hu.1 hu.2⟩) _
          ⟨hi x (hm x (by simp)) t ht, hf t ht⟩).2
      · exact ih _ (hi a (hm a (by simp)) t ht) h fun b hb => hm b (by simp [hb])
  match l, hx with
  | [a], hx =>
    obtain rfl : x = a := by simpa using hx
    exact hf s hs
  | a :: b :: rest, hx =>
    exact fold _ _ (hc s hs) ((mem_arrange _ _ _).2 hx) fun c hc => (mem_arrange _ _ _).1 hc

/-- What one work of a list brings about, and every work keeps, holds once the works have been taken in any
order. -/
theorem inOpenOrder_reaches {α : Type} {P : State → Prop} {f : α → State → State} (l : List α) (s : State)
    {x : α} (hx : x ∈ l) (hf : ∀ t, P (f x t)) (hk : ∀ a ∈ l, ∀ t, P t → P (f a t)) :
    P (inOpenOrder l f s) :=
  inOpenOrder_reaches_of (I := fun _ => True) l s hx trivial (fun _ _ => trivial) (fun _ _ _ _ => trivial)
    (fun t _ => hf t) (fun a ha t _ => hk a ha t)

@[simp] theorem inOpenOrder_nil {α : Type} (f : α → State → State) (s : State) : inOpenOrder [] f s = s := rfl

@[simp] theorem inOpenOrder_single {α : Type} (a : α) (f : α → State → State) (s : State) :
    inOpenOrder [a] f s = f a s := rfl

/-- Works in an open order are taken one after another in some order of their list, after a choice that touches the
two fields of the open choices alone. -/
theorem inOpenOrder_eq_foldl {α : Type} (l : List α) (f : α → State → State) (s : State) :
    ∃ (order : List α) (choices : List Nat) (choiceNo : Nat), order.Perm l ∧
      inOpenOrder l f s = order.foldl (fun t a => f a t) { s with choices := choices, choiceNo := choiceNo } := by
  match l with
  | [] => exact ⟨[], s.choices, s.choiceNo, .refl _, rfl⟩
  | [a] => exact ⟨[a], s.choices, s.choiceNo, .refl _, rfl⟩
  | a :: b :: rest =>
    refine ⟨_, s.choiceMade.choices, s.choiceMade.choiceNo, arrange_perm s.nextChoice (a :: b :: rest), ?_⟩
    have h : s.choiceMade = { s with choices := s.choiceMade.choices, choiceNo := s.choiceMade.choiceNo } := by
      unfold State.choiceMade
      split <;> rfl
    rw [← h]
    rfl

/-! ### Bits of a coded word -/

/-- Bit `k` of the word of the bits `p`. -/
theorem bitsOf_testBit (p : Nat → Bool) (n k : Nat) : (bitsOf n p).testBit k = (decide (k < n) && p k) := by
  have key : bitsOf n p < 2 ^ n ∧ ∀ k, (bitsOf n p).testBit k = (decide (k < n) && p k) := by
    induction n with
    | zero => simp [bitsOf]
    | succ n ih =>
      obtain ⟨lt, bit⟩ := ih
      have e : bitsOf (n + 1) p = (if p n then 2 ^ n else 0) + bitsOf n p := by
        simp [bitsOf, List.range_succ, List.sum_append, Nat.add_comm]
      refine ⟨by rw [e, Nat.pow_succ]; split <;> omega, fun k => ?_⟩
      have b := bit k
      rw [e]
      rcases Nat.lt_trichotomy k n with h | rfl | h
      · have hk : k < n + 1 := by omega
        split
        · rw [Nat.testBit_two_pow_add_gt h, b]
          simp [h, hk]
        · simpa [h, hk] using b
      · split
        · rename_i hp
          rw [Nat.testBit_two_pow_add_eq, b]
          simp [hp]
        · rename_i hp
          simp [b, hp]
      · have hk : ¬ k < n + 1 := by omega
        rw [Nat.testBit_lt_two_pow]
        · simp [hk]
        · have := Nat.pow_le_pow_right (n := 2) (by omega) h
          rw [Nat.pow_succ] at this
          split <;> omega
  exact key.2 k

/-! ### Raising a cause -/

/-- A rise touches the causes and the report queue alone. -/
theorem raise_frame (c : Fin 128) (a : RecAction) (sub : Subject) (v : Option Half) (s : State) :
    raise c a sub v s =
      { s with causes := (raise c a sub v s).causes, reports := (raise c a sub v s).reports } := by
  unfold raise fileRecord
  repeat' (first | rfl | split | dsimp only)

@[simp] theorem raise_ring (c : Fin 128) (a : RecAction) (sub : Subject) (v : Option Half) (s : State) :
    (raise c a sub v s).ring = s.ring := by rw [raise_frame]
@[simp] theorem raise_reply (c : Fin 128) (a : RecAction) (sub : Subject) (v : Option Half) (s : State) :
    (raise c a sub v s).reply = s.reply := by rw [raise_frame]
@[simp] theorem raise_windows (c : Fin 128) (a : RecAction) (sub : Subject) (v : Option Half) (s : State) :
    (raise c a sub v s).windows = s.windows := by rw [raise_frame]
@[simp] theorem raise_lowHalf (c : Fin 128) (a : RecAction) (sub : Subject) (v : Option Half) (s : State) :
    (raise c a sub v s).lowHalf = s.lowHalf := by rw [raise_frame]
@[simp] theorem raise_channels (c : Fin 128) (a : RecAction) (sub : Subject) (v : Option Half) (s : State) :
    (raise c a sub v s).channels = s.channels := by rw [raise_frame]
@[simp] theorem raise_curves (c : Fin 128) (a : RecAction) (sub : Subject) (v : Option Half) (s : State) :
    (raise c a sub v s).curves = s.curves := by rw [raise_frame]
@[simp] theorem raise_limits (c : Fin 128) (a : RecAction) (sub : Subject) (v : Option Half) (s : State) :
    (raise c a sub v s).limits = s.limits := by rw [raise_frame]
@[simp] theorem raise_sects (c : Fin 128) (a : RecAction) (sub : Subject) (v : Option Half) (s : State) :
    (raise c a sub v s).sects = s.sects := by rw [raise_frame]
@[simp] theorem raise_power (c : Fin 128) (a : RecAction) (sub : Subject) (v : Option Half) (s : State) :
    (raise c a sub v s).power = s.power := by rw [raise_frame]
@[simp] theorem raise_yawCfg (c : Fin 128) (a : RecAction) (sub : Subject) (v : Option Half) (s : State) :
    (raise c a sub v s).yawCfg = s.yawCfg := by rw [raise_frame]
@[simp] theorem raise_yaw (c : Fin 128) (a : RecAction) (sub : Subject) (v : Option Half) (s : State) :
    (raise c a sub v s).yaw = s.yaw := by rw [raise_frame]
@[simp] theorem raise_coolCfg (c : Fin 128) (a : RecAction) (sub : Subject) (v : Option Half) (s : State) :
    (raise c a sub v s).coolCfg = s.coolCfg := by rw [raise_frame]
@[simp] theorem raise_cool (c : Fin 128) (a : RecAction) (sub : Subject) (v : Option Half) (s : State) :
    (raise c a sub v s).cool = s.cool := by rw [raise_frame]
@[simp] theorem raise_pumps (c : Fin 128) (a : RecAction) (sub : Subject) (v : Option Half) (s : State) :
    (raise c a sub v s).pumps = s.pumps := by rw [raise_frame]
@[simp] theorem raise_sup (c : Fin 128) (a : RecAction) (sub : Subject) (v : Option Half) (s : State) :
    (raise c a sub v s).sup = s.sup := by rw [raise_frame]
@[simp] theorem raise_lines (c : Fin 128) (a : RecAction) (sub : Subject) (v : Option Half) (s : State) :
    (raise c a sub v s).lines = s.lines := by rw [raise_frame]
@[simp] theorem raise_plan (c : Fin 128) (a : RecAction) (sub : Subject) (v : Option Half) (s : State) :
    (raise c a sub v s).plan = s.plan := by rw [raise_frame]
@[simp] theorem raise_choices (c : Fin 128) (a : RecAction) (sub : Subject) (v : Option Half) (s : State) :
    (raise c a sub v s).choices = s.choices := by rw [raise_frame]
@[simp] theorem raise_choiceNo (c : Fin 128) (a : RecAction) (sub : Subject) (v : Option Half) (s : State) :
    (raise c a sub v s).choiceNo = s.choiceNo := by rw [raise_frame]
@[simp] theorem raise_pending (c : Fin 128) (a : RecAction) (sub : Subject) (v : Option Half) (s : State) :
    (raise c a sub v s).pending = s.pending := by rw [raise_frame]

/-- A cause that is pending does not rise again. -/
theorem raise_of_pending (c : Fin 128) (a : RecAction) (sub : Subject) (v : Option Half) (s : State)
    (h : s.causes[c].pending = true) : raise c a sub v s = s := by
  unfold raise; rw [if_pos h]

/-- A raised cause is pending. -/
@[simp] theorem raise_pending_self (c : Fin 128) (a : RecAction) (sub : Subject) (v : Option Half) (s : State) :
    (raise c a sub v s).causes[c.val].pending = true := by
  unfold raise fileRecord
  split
  · assumption
  · dsimp only
    split
    · split
      · simp
      · simp only [State.setCause_causes]
        rw [Vector.getElem_set]
        split
        · rfl
        · simp
    · simp

/-- A rise lowers no cause. -/
theorem raise_pending_mono (c d : Fin 128) (a : RecAction) (sub : Subject) (v : Option Half) (s : State)
    (h : s.causes[d].pending = true) : (raise c a sub v s).causes[d].pending = true := by
  have key : ∀ (e : Fin 128) (cs : Vector Cause 128) (x : Cause), x.pending = true →
      cs[d].pending = true → (cs.set e x)[d].pending = true := by
    intro e cs x hx hd
    simp only [Fin.getElem_fin] at hd ⊢
    rw [Vector.getElem_set]; split <;> assumption
  unfold raise fileRecord
  split
  · exact h
  · dsimp only
    split
    · split
      · exact key _ _ _ rfl h
      · exact key _ _ _ rfl (key _ _ _ rfl h)
    · exact key _ _ _ rfl h

/-- A rise changes no enable and no injected mark. -/
theorem raise_marks (c d : Fin 128) (a : RecAction) (sub : Subject) (v : Option Half) (s : State) :
    (raise c a sub v s).causes[d].summaryEnable = s.causes[d].summaryEnable ∧
      (raise c a sub v s).causes[d].reportEnable = s.causes[d].reportEnable ∧
      (raise c a sub v s).causes[d].injected = s.causes[d].injected := by
  have key : ∀ (e : Fin 128) (cs : Vector Cause 128),
      (cs.set e { cs[e] with pending := true })[d].summaryEnable = cs[d].summaryEnable ∧
      (cs.set e { cs[e] with pending := true })[d].reportEnable = cs[d].reportEnable ∧
      (cs.set e { cs[e] with pending := true })[d].injected = cs[d].injected := by
    intro e cs
    simp only [Fin.getElem_fin, Vector.getElem_set]
    split
    · rename_i he
      have : e = d := Fin.ext he
      subst this; simp
    · simp
  unfold raise fileRecord
  split
  · simp
  · dsimp only
    split
    · split
      · exact key _ _
      · obtain ⟨h1, h2, h3⟩ := key CauseNo.reportOverflow (s.setCause c { s.causes[c] with pending := true }).causes
        obtain ⟨g1, g2, g3⟩ := key c s.causes
        exact ⟨h1.trans g1, h2.trans g2, h3.trans g3⟩
    · exact key _ _

/-- A rise keeps the bound of the report queue (R159). -/
theorem raise_queue_le (c : Fin 128) (a : RecAction) (sub : Subject) (v : Option Half) (s : State)
    (h : s.reports.queue.length ≤ 32) : (raise c a sub v s).reports.queue.length ≤ 32 := by
  unfold raise fileRecord
  split
  · exact h
  · dsimp only
    split
    · split
      · rename_i hlt; simp only [State.setCause_reports, List.length_append, List.length_singleton] at hlt ⊢
        exact hlt
      · exact h
    · exact h

/-- What a rise does to the causes and the report queue follows from these and from the stamp alone. -/
theorem raise_congr (c : Fin 128) (a : RecAction) (sub : Subject) (v : Option Half) (s t : State)
    (h1 : t.causes = s.causes) (h2 : t.reports = s.reports) (h3 : t.ring.extCount = s.ring.extCount) :
    raise c a sub v t =
      { t with causes := (raise c a sub v s).causes, reports := (raise c a sub v s).reports } := by
  by_cases hp : s.causes[c].pending = true
  · rw [raise_of_pending _ _ _ _ s hp, raise_of_pending _ _ _ _ t (by rw [h1]; exact hp), ← h1, ← h2]
  · simp only [raise, fileRecord, State.setCause, h1, h2, h3, if_neg hp]
    by_cases he : s.causes[c].reportEnable = true
    · simp only [if_pos he]
      by_cases hq : s.reports.queue.length < Config.queueCapacity
      · simp [hq]
      · simp [hq]
    · simp only [if_neg he]

/-! A rise and an update of another field may change places. -/

theorem raise_with_reply (c : Fin 128) (a : RecAction) (sub : Subject) (v : Option Half) (s : State) (x : Option Reply) :
    raise c a sub v { s with reply := x } = { raise c a sub v s with reply := x } := by
  rw [raise_congr c a sub v s { s with reply := x } rfl rfl rfl, raise_frame c a sub v s]

theorem raise_with_windows (c : Fin 128) (a : RecAction) (sub : Subject) (v : Option Half) (s : State) (x : Vector Window 32) :
    raise c a sub v { s with windows := x } = { raise c a sub v s with windows := x } := by
  rw [raise_congr c a sub v s { s with windows := x } rfl rfl rfl, raise_frame c a sub v s]

theorem raise_with_lowHalf (c : Fin 128) (a : RecAction) (sub : Subject) (v : Option Half) (s : State) (x : Option LowHalf) :
    raise c a sub v { s with lowHalf := x } = { raise c a sub v s with lowHalf := x } := by
  rw [raise_congr c a sub v s { s with lowHalf := x } rfl rfl rfl, raise_frame c a sub v s]

theorem raise_with_channels (c : Fin 128) (a : RecAction) (sub : Subject) (v : Option Half) (s : State) (x : Vector Channel 128) :
    raise c a sub v { s with channels := x } = { raise c a sub v s with channels := x } := by
  rw [raise_congr c a sub v s { s with channels := x } rfl rfl rfl, raise_frame c a sub v s]

theorem raise_with_curves (c : Fin 128) (a : RecAction) (sub : Subject) (v : Option Half) (s : State) (x : Vector Curve 5) :
    raise c a sub v { s with curves := x } = { raise c a sub v s with curves := x } := by
  rw [raise_congr c a sub v s { s with curves := x } rfl rfl rfl, raise_frame c a sub v s]

theorem raise_with_limits (c : Fin 128) (a : RecAction) (sub : Subject) (v : Option Half) (s : State) (x : Vector Limit 96) :
    raise c a sub v { s with limits := x } = { raise c a sub v s with limits := x } := by
  rw [raise_congr c a sub v s { s with limits := x } rfl rfl rfl, raise_frame c a sub v s]

theorem raise_with_sects (c : Fin 128) (a : RecAction) (sub : Subject) (v : Option Half) (s : State) (x : Vector Sect 6) :
    raise c a sub v { s with sects := x } = { raise c a sub v s with sects := x } := by
  rw [raise_congr c a sub v s { s with sects := x } rfl rfl rfl, raise_frame c a sub v s]

theorem raise_with_power (c : Fin 128) (a : RecAction) (sub : Subject) (v : Option Half) (s : State) (x : Power) :
    raise c a sub v { s with power := x } = { raise c a sub v s with power := x } := by
  rw [raise_congr c a sub v s { s with power := x } rfl rfl rfl, raise_frame c a sub v s]

theorem raise_with_yawCfg (c : Fin 128) (a : RecAction) (sub : Subject) (v : Option Half) (s : State) (x : YawSettings) :
    raise c a sub v { s with yawCfg := x } = { raise c a sub v s with yawCfg := x } := by
  rw [raise_congr c a sub v s { s with yawCfg := x } rfl rfl rfl, raise_frame c a sub v s]

theorem raise_with_yaw (c : Fin 128) (a : RecAction) (sub : Subject) (v : Option Half) (s : State) (x : Yaw) :
    raise c a sub v { s with yaw := x } = { raise c a sub v s with yaw := x } := by
  rw [raise_congr c a sub v s { s with yaw := x } rfl rfl rfl, raise_frame c a sub v s]

theorem raise_with_coolCfg (c : Fin 128) (a : RecAction) (sub : Subject) (v : Option Half) (s : State) (x : CoolSettings) :
    raise c a sub v { s with coolCfg := x } = { raise c a sub v s with coolCfg := x } := by
  rw [raise_congr c a sub v s { s with coolCfg := x } rfl rfl rfl, raise_frame c a sub v s]

theorem raise_with_cool (c : Fin 128) (a : RecAction) (sub : Subject) (v : Option Half) (s : State) (x : Cool) :
    raise c a sub v { s with cool := x } = { raise c a sub v s with cool := x } := by
  rw [raise_congr c a sub v s { s with cool := x } rfl rfl rfl, raise_frame c a sub v s]

theorem raise_with_pumps (c : Fin 128) (a : RecAction) (sub : Subject) (v : Option Half) (s : State) (x : Vector Pump 3) :
    raise c a sub v { s with pumps := x } = { raise c a sub v s with pumps := x } := by
  rw [raise_congr c a sub v s { s with pumps := x } rfl rfl rfl, raise_frame c a sub v s]

theorem raise_with_sup (c : Fin 128) (a : RecAction) (sub : Subject) (v : Option Half) (s : State) (x : Supervisor) :
    raise c a sub v { s with sup := x } = { raise c a sub v s with sup := x } := by
  rw [raise_congr c a sub v s { s with sup := x } rfl rfl rfl, raise_frame c a sub v s]

theorem raise_with_lines (c : Fin 128) (a : RecAction) (sub : Subject) (v : Option Half) (s : State) (x : Lines) :
    raise c a sub v { s with lines := x } = { raise c a sub v s with lines := x } := by
  rw [raise_congr c a sub v s { s with lines := x } rfl rfl rfl, raise_frame c a sub v s]

theorem raise_with_plan (c : Fin 128) (a : RecAction) (sub : Subject) (v : Option Half) (s : State) (x : Vector PlanEntry 16) :
    raise c a sub v { s with plan := x } = { raise c a sub v s with plan := x } := by
  rw [raise_congr c a sub v s { s with plan := x } rfl rfl rfl, raise_frame c a sub v s]

theorem raise_with_choices (c : Fin 128) (a : RecAction) (sub : Subject) (v : Option Half) (s : State) (x : List Nat) :
    raise c a sub v { s with choices := x } = { raise c a sub v s with choices := x } := by
  rw [raise_congr c a sub v s { s with choices := x } rfl rfl rfl, raise_frame c a sub v s]

theorem raise_with_choiceNo (c : Fin 128) (a : RecAction) (sub : Subject) (v : Option Half) (s : State) (x : Nat) :
    raise c a sub v { s with choiceNo := x } = { raise c a sub v s with choiceNo := x } := by
  rw [raise_congr c a sub v s { s with choiceNo := x } rfl rfl rfl, raise_frame c a sub v s]

theorem raise_with_pending (c : Fin 128) (a : RecAction) (sub : Subject) (v : Option Half) (s : State) (x : List Instr) :
    raise c a sub v { s with pending := x } = { raise c a sub v s with pending := x } := by
  rw [raise_congr c a sub v s { s with pending := x } rfl rfl rfl, raise_frame c a sub v s]

theorem raise_with_ring (c : Fin 128) (a : RecAction) (sub : Subject) (v : Option Half) (s : State) (x : Ring)
    (h : x.extCount = s.ring.extCount) :
    raise c a sub v { s with ring := x } = { raise c a sub v s with ring := x } := by
  rw [raise_congr c a sub v s { s with ring := x } rfl rfl h, raise_frame c a sub v s]

/-- A rise and the sending of a cell may change places. -/
theorem sendTower_raise (x : Cell) (c : Fin 128) (a : RecAction) (sub : Subject) (v : Option Half) (s : State) :
    sendTower x (raise c a sub v s) = raise c a sub v (sendTower x s) := by
  have h := raise_with_ring c a sub v s { s.ring with towerOut := s.ring.towerOut ++ [x] } rfl
  unfold sendTower
  rw [raise_ring]
  exact h.symm

theorem sendNode_raise (x : Cell) (c : Fin 128) (a : RecAction) (sub : Subject) (v : Option Half) (s : State) :
    sendNode x (raise c a sub v s) = raise c a sub v (sendNode x s) := by
  have h := raise_with_ring c a sub v s { s.ring with nodeOut := s.ring.nodeOut ++ [x] } rfl
  unfold sendNode
  rw [raise_ring]
  exact h.symm

/-- A rise does not touch the delivery mark. -/
@[simp] theorem raise_delivering (c : Fin 128) (a : RecAction) (sub : Subject) (v : Option Half) (s : State) :
    (raise c a sub v s).reports.delivering = s.reports.delivering := by
  unfold raise fileRecord
  repeat' (first | rfl | split | dsimp only)

/-! ### The yaw to HELD -/

/-- The yaw to HELD touches the yaw's runtime and BRAKE_HOLD alone. -/
theorem yawToHeld_frame (s : State) : yawToHeld s =
    { s with yaw := (yawToHeld s).yaw
             lines := { s.lines with brakeHold := (yawToHeld s).lines.brakeHold } } := by
  unfold yawToHeld
  split <;> rfl

@[simp] theorem yawToHeld_ring (s : State) : (yawToHeld s).ring = s.ring := by rw [yawToHeld_frame]
@[simp] theorem yawToHeld_reply (s : State) : (yawToHeld s).reply = s.reply := by rw [yawToHeld_frame]
@[simp] theorem yawToHeld_windows (s : State) : (yawToHeld s).windows = s.windows := by rw [yawToHeld_frame]
@[simp] theorem yawToHeld_lowHalf (s : State) : (yawToHeld s).lowHalf = s.lowHalf := by rw [yawToHeld_frame]
@[simp] theorem yawToHeld_channels (s : State) : (yawToHeld s).channels = s.channels := by rw [yawToHeld_frame]
@[simp] theorem yawToHeld_curves (s : State) : (yawToHeld s).curves = s.curves := by rw [yawToHeld_frame]
@[simp] theorem yawToHeld_limits (s : State) : (yawToHeld s).limits = s.limits := by rw [yawToHeld_frame]
@[simp] theorem yawToHeld_sects (s : State) : (yawToHeld s).sects = s.sects := by rw [yawToHeld_frame]
@[simp] theorem yawToHeld_power (s : State) : (yawToHeld s).power = s.power := by rw [yawToHeld_frame]
@[simp] theorem yawToHeld_yawCfg (s : State) : (yawToHeld s).yawCfg = s.yawCfg := by rw [yawToHeld_frame]
@[simp] theorem yawToHeld_coolCfg (s : State) : (yawToHeld s).coolCfg = s.coolCfg := by rw [yawToHeld_frame]
@[simp] theorem yawToHeld_cool (s : State) : (yawToHeld s).cool = s.cool := by rw [yawToHeld_frame]
@[simp] theorem yawToHeld_pumps (s : State) : (yawToHeld s).pumps = s.pumps := by rw [yawToHeld_frame]
@[simp] theorem yawToHeld_causes (s : State) : (yawToHeld s).causes = s.causes := by rw [yawToHeld_frame]
@[simp] theorem yawToHeld_reports (s : State) : (yawToHeld s).reports = s.reports := by rw [yawToHeld_frame]
@[simp] theorem yawToHeld_sup (s : State) : (yawToHeld s).sup = s.sup := by rw [yawToHeld_frame]
@[simp] theorem yawToHeld_plan (s : State) : (yawToHeld s).plan = s.plan := by rw [yawToHeld_frame]
@[simp] theorem yawToHeld_choices (s : State) : (yawToHeld s).choices = s.choices := by rw [yawToHeld_frame]
@[simp] theorem yawToHeld_choiceNo (s : State) : (yawToHeld s).choiceNo = s.choiceNo := by rw [yawToHeld_frame]
@[simp] theorem yawToHeld_pending (s : State) : (yawToHeld s).pending = s.pending := by rw [yawToHeld_frame]

@[simp] theorem yawToHeld_mode (s : State) : (yawToHeld s).yaw.mode = .held := by
  unfold yawToHeld; split
  · assumption
  · rfl

@[simp] theorem yawToHeld_twist (s : State) : (yawToHeld s).yaw.twist = s.yaw.twist := by
  unfold yawToHeld; split <;> rfl

@[simp] theorem yawToHeld_window (s : State) : (yawToHeld s).yaw.window = s.yaw.window := by
  unfold yawToHeld; split <;> rfl

/-! ### The stop demand -/

/-- A stop demand touches the nacelle state and reason, the sections, the yaw's runtime and the output lines
alone. -/
theorem stopDemand_frame (r : StopReason) (s : State) : stopDemand r s =
    { s with
      sup := { s.sup with nacelle := (stopDemand r s).sup.nacelle, reason := (stopDemand r s).sup.reason }
      sects := (stopDemand r s).sects
      yaw := (stopDemand r s).yaw
      lines := { s.lines with
        stopOut := (stopDemand r s).lines.stopOut, brakeHold := (stopDemand r s).lines.brakeHold } } := by
  unfold stopDemand enterStopped
  split
  · dsimp only
    split
    · rw [yawToHeld_frame]; rfl
    · rfl
  · rfl

@[simp] theorem stopDemand_ring (r : StopReason) (s : State) : (stopDemand r s).ring = s.ring := by
  rw [stopDemand_frame]
@[simp] theorem stopDemand_reply (r : StopReason) (s : State) : (stopDemand r s).reply = s.reply := by
  rw [stopDemand_frame]
@[simp] theorem stopDemand_windows (r : StopReason) (s : State) : (stopDemand r s).windows = s.windows := by
  rw [stopDemand_frame]
@[simp] theorem stopDemand_lowHalf (r : StopReason) (s : State) : (stopDemand r s).lowHalf = s.lowHalf := by
  rw [stopDemand_frame]
@[simp] theorem stopDemand_channels (r : StopReason) (s : State) : (stopDemand r s).channels = s.channels := by
  rw [stopDemand_frame]
@[simp] theorem stopDemand_curves (r : StopReason) (s : State) : (stopDemand r s).curves = s.curves := by
  rw [stopDemand_frame]
@[simp] theorem stopDemand_limits (r : StopReason) (s : State) : (stopDemand r s).limits = s.limits := by
  rw [stopDemand_frame]
@[simp] theorem stopDemand_power (r : StopReason) (s : State) : (stopDemand r s).power = s.power := by
  rw [stopDemand_frame]
@[simp] theorem stopDemand_yawCfg (r : StopReason) (s : State) : (stopDemand r s).yawCfg = s.yawCfg := by
  rw [stopDemand_frame]
@[simp] theorem stopDemand_coolCfg (r : StopReason) (s : State) : (stopDemand r s).coolCfg = s.coolCfg := by
  rw [stopDemand_frame]
@[simp] theorem stopDemand_cool (r : StopReason) (s : State) : (stopDemand r s).cool = s.cool := by
  rw [stopDemand_frame]
@[simp] theorem stopDemand_pumps (r : StopReason) (s : State) : (stopDemand r s).pumps = s.pumps := by
  rw [stopDemand_frame]
@[simp] theorem stopDemand_causes (r : StopReason) (s : State) : (stopDemand r s).causes = s.causes := by
  rw [stopDemand_frame]
@[simp] theorem stopDemand_reports (r : StopReason) (s : State) : (stopDemand r s).reports = s.reports := by
  rw [stopDemand_frame]
@[simp] theorem stopDemand_plan (r : StopReason) (s : State) : (stopDemand r s).plan = s.plan := by
  rw [stopDemand_frame]
@[simp] theorem stopDemand_choices (r : StopReason) (s : State) : (stopDemand r s).choices = s.choices := by
  rw [stopDemand_frame]
@[simp] theorem stopDemand_choiceNo (r : StopReason) (s : State) : (stopDemand r s).choiceNo = s.choiceNo := by
  rw [stopDemand_frame]
@[simp] theorem stopDemand_pending (r : StopReason) (s : State) : (stopDemand r s).pending = s.pending := by
  rw [stopDemand_frame]

/-- Outside OPERATING a stop demand is kept out of the state (R167). -/
theorem stopDemand_of_not_operating (r : StopReason) (s : State) (h : s.sup.nacelle ≠ .operating) :
    stopDemand r s = s := by
  unfold stopDemand; rw [if_neg h]

/-- In OPERATING a stop demand enters STOPPED (R167). -/
theorem stopDemand_of_operating (r : StopReason) (s : State) (h : s.sup.nacelle = .operating) :
    stopDemand r s = enterStopped r s := by
  unfold stopDemand; rw [if_pos h]

/-- After a stop demand the nacelle is not OPERATING. -/
theorem stopDemand_not_operating (r : StopReason) (s : State) : (stopDemand r s).sup.nacelle ≠ .operating := by
  unfold stopDemand enterStopped
  split
  · dsimp only
    split <;> simp
  · assumption

@[simp] theorem stopDemand_twist (r : StopReason) (s : State) : (stopDemand r s).yaw.twist = s.yaw.twist := by
  unfold stopDemand enterStopped
  split
  · dsimp only
    split <;> simp
  · rfl

@[simp] theorem stopDemand_mode (r : StopReason) (s : State) : (stopDemand r s).sup.mode = s.sup.mode := by
  rw [stopDemand_frame]

/-! ### Sections -/

theorem isolateSect_frame (i : Fin 6) (s : State) :
    isolateSect i s = { s with sects := (isolateSect i s).sects } := by
  unfold isolateSect
  dsimp only
  split <;> rfl

@[simp] theorem isolateSect_ring (i : Fin 6) (s : State) : (isolateSect i s).ring = s.ring := by
  rw [isolateSect_frame]
@[simp] theorem isolateSect_reply (i : Fin 6) (s : State) : (isolateSect i s).reply = s.reply := by
  rw [isolateSect_frame]
@[simp] theorem isolateSect_windows (i : Fin 6) (s : State) : (isolateSect i s).windows = s.windows := by
  rw [isolateSect_frame]
@[simp] theorem isolateSect_lowHalf (i : Fin 6) (s : State) : (isolateSect i s).lowHalf = s.lowHalf := by
  rw [isolateSect_frame]
@[simp] theorem isolateSect_channels (i : Fin 6) (s : State) : (isolateSect i s).channels = s.channels := by
  rw [isolateSect_frame]
@[simp] theorem isolateSect_curves (i : Fin 6) (s : State) : (isolateSect i s).curves = s.curves := by
  rw [isolateSect_frame]
@[simp] theorem isolateSect_limits (i : Fin 6) (s : State) : (isolateSect i s).limits = s.limits := by
  rw [isolateSect_frame]
@[simp] theorem isolateSect_power (i : Fin 6) (s : State) : (isolateSect i s).power = s.power := by
  rw [isolateSect_frame]
@[simp] theorem isolateSect_yawCfg (i : Fin 6) (s : State) : (isolateSect i s).yawCfg = s.yawCfg := by
  rw [isolateSect_frame]
@[simp] theorem isolateSect_yaw (i : Fin 6) (s : State) : (isolateSect i s).yaw = s.yaw := by
  rw [isolateSect_frame]
@[simp] theorem isolateSect_coolCfg (i : Fin 6) (s : State) : (isolateSect i s).coolCfg = s.coolCfg := by
  rw [isolateSect_frame]
@[simp] theorem isolateSect_cool (i : Fin 6) (s : State) : (isolateSect i s).cool = s.cool := by
  rw [isolateSect_frame]
@[simp] theorem isolateSect_pumps (i : Fin 6) (s : State) : (isolateSect i s).pumps = s.pumps := by
  rw [isolateSect_frame]
@[simp] theorem isolateSect_causes (i : Fin 6) (s : State) : (isolateSect i s).causes = s.causes := by
  rw [isolateSect_frame]
@[simp] theorem isolateSect_reports (i : Fin 6) (s : State) : (isolateSect i s).reports = s.reports := by
  rw [isolateSect_frame]
@[simp] theorem isolateSect_sup (i : Fin 6) (s : State) : (isolateSect i s).sup = s.sup := by
  rw [isolateSect_frame]
@[simp] theorem isolateSect_lines (i : Fin 6) (s : State) : (isolateSect i s).lines = s.lines := by
  rw [isolateSect_frame]
@[simp] theorem isolateSect_plan (i : Fin 6) (s : State) : (isolateSect i s).plan = s.plan := by
  rw [isolateSect_frame]
@[simp] theorem isolateSect_choices (i : Fin 6) (s : State) : (isolateSect i s).choices = s.choices := by
  rw [isolateSect_frame]
@[simp] theorem isolateSect_choiceNo (i : Fin 6) (s : State) : (isolateSect i s).choiceNo = s.choiceNo := by
  rw [isolateSect_frame]
@[simp] theorem isolateSect_pending (i : Fin 6) (s : State) : (isolateSect i s).pending = s.pending := by
  rw [isolateSect_frame]

end Sys2Proof.Machine
end

