-- ==== Sys2Proof/Laws/Readers.lean ====
section
/-! SUPPORT. What the readers of a channel leave alone: the frame of channel updates, channel losses and
evaluations of limits. -/

namespace Sys2Proof.Machine

/-- What no reader of a channel touches, whatever it does; and no reader lowers a cause. -/
structure ReaderKept (s t : State) : Prop where
  ring       : t.ring = s.ring
  reply      : t.reply = s.reply
  windows    : t.windows = s.windows
  lowHalf    : t.lowHalf = s.lowHalf
  channels   : t.channels = s.channels
  curves     : t.curves = s.curves
  power      : t.power = s.power
  yawCfg     : t.yawCfg = s.yawCfg
  coolCfg    : t.coolCfg = s.coolCfg
  pumps      : t.pumps = s.pumps
  plan       : t.plan = s.plan
  queue      : t.pending = s.pending
  estopIn    : t.lines.estopIn = s.lines.estopIn
  serviceKey : t.lines.serviceKey = s.lines.serviceKey
  delivering : t.reports.delivering = s.reports.delivering
  mono       : ∀ d : Fin 128, s.causes[d].pending = true → t.causes[d].pending = true

namespace ReaderKept

theorem refl (s : State) : ReaderKept s s := by
  constructor <;> first | rfl | exact fun _ h => h

theorem trans {s t u : State} (h : ReaderKept s t) (k : ReaderKept t u) : ReaderKept s u where
  ring := k.ring.trans h.ring
  reply := k.reply.trans h.reply
  windows := k.windows.trans h.windows
  lowHalf := k.lowHalf.trans h.lowHalf
  channels := k.channels.trans h.channels
  curves := k.curves.trans h.curves
  power := k.power.trans h.power
  yawCfg := k.yawCfg.trans h.yawCfg
  coolCfg := k.coolCfg.trans h.coolCfg
  pumps := k.pumps.trans h.pumps
  plan := k.plan.trans h.plan
  queue := k.queue.trans h.queue
  estopIn := k.estopIn.trans h.estopIn
  serviceKey := k.serviceKey.trans h.serviceKey
  delivering := k.delivering.trans h.delivering
  mono := fun d hd => k.mono d (h.mono d hd)

/-! ### The shared operations -/

theorem yawSet (s : State) (y : Yaw) : ReaderKept s { s with yaw := y } := by
  constructor <;> first | rfl | exact fun _ h => h

theorem coolSet (s : State) (y : Cool) : ReaderKept s { s with cool := y } := by
  constructor <;> first | rfl | exact fun _ h => h

theorem choiceMade (s : State) : ReaderKept s s.choiceMade := by
  unfold State.choiceMade
  split <;> (constructor <;> first | rfl | exact fun _ h => h)

theorem setLimit (s : State) (i : Fin 96) (l : Limit) : ReaderKept s (s.setLimit i l) := by
  constructor <;> first | rfl | exact fun _ h => h

theorem setSect (s : State) (i : Fin 6) (x : Sect) : ReaderKept s (s.setSect i x) := by
  constructor <;> first | rfl | exact fun _ h => h

theorem putYaw (y : Yaw) (s : State) : ReaderKept s (Machine.putYaw y s) := by
  constructor <;> first | rfl | exact fun _ h => h

theorem raise (c : Fin 128) (a : RecAction) (sub : Subject) (v : Option Half) (s : State) :
    ReaderKept s (Machine.raise c a sub v s) := by
  constructor <;> first | (simp; done) | exact fun d h => raise_pending_mono c d a sub v s h

theorem yawToHeld (s : State) : ReaderKept s (Machine.yawToHeld s) := by
  unfold Machine.yawToHeld
  split
  · exact refl s
  · exact putYaw _ s

theorem stopDemand (r : StopReason) (s : State) : ReaderKept s (Machine.stopDemand r s) := by
  have h : ReaderKept s (holdOnline (putNacelle .stopped r s)) := by
    constructor <;> first | rfl | exact fun _ h => h
  unfold Machine.stopDemand enterStopped
  split
  · dsimp only
    split
    · exact h.trans (yawToHeld _)
    · exact h
  · exact refl s

theorem isolateSect (i : Fin 6) (s : State) : ReaderKept s (Machine.isolateSect i s) := by
  unfold Machine.isolateSect
  dsimp only
  split
  · exact setSect s i _
  · exact refl s

theorem clearYawAuto (s : State) : ReaderKept s (Machine.clearYawAuto s) := by
  constructor <;> first | rfl | exact fun _ h => h

theorem inOpenOrder {α : Type} (l : List α) (f : α → State → State) (s : State)
    (h : ∀ a ∈ l, ∀ t, ReaderKept t (f a t)) : ReaderKept s (Machine.inOpenOrder l f s) :=
  inOpenOrder_keeps (P := ReaderKept s) l s (fun t ht => ht.trans (choiceMade t))
    (fun a ha t ht => ht.trans (h a ha t)) (refl s)

/-! ### The limit unit -/

theorem beginAction (l : Limit) (s : State) : ReaderKept s (Machine.beginAction l s) := by
  unfold Machine.beginAction
  split
  · exact isolateSect _ s
  · exact foldl_keeps (P := ReaderKept s) _ (fun k _ t ht => ht.trans (isolateSect k t)) s (refl s)
  · exact yawToHeld s
  · exact stopDemand _ s
  · exact refl s
  · exact refl s
  · exact refl s

theorem levelEntered (i : Fin 96) (s : State) : ReaderKept s (Machine.levelEntered i s) := by
  unfold Machine.levelEntered
  dsimp only
  split
  · split
    · exact raise _ _ _ _ s
    · exact refl s
  · exact (raise _ _ _ _ s).trans (beginAction _ _)
  · exact raise _ _ _ _ s
  · exact refl s

theorem evaluateLimit (i : Fin 96) (v : Int) (s : State) : ReaderKept s (Machine.evaluateLimit i v s) := by
  unfold Machine.evaluateLimit
  dsimp only
  split
  · exact refl s
  · split
    · exact setLimit s i _
    · split
      · exact (setLimit s i _).trans (levelEntered i _)
      · exact setLimit s i _

theorem limitLoss (i : Fin 96) (empty : Bool) (s : State) : ReaderKept s (Machine.limitLoss i empty s) := by
  unfold Machine.limitLoss
  dsimp only
  split
  · exact refl s
  · split
    · exact (setLimit s i _).trans (levelEntered i _)
    · exact setLimit s i _

theorem limitBound (i : Fin 96) (s : State) : ReaderKept s (Machine.limitBound i s) := by
  unfold Machine.limitBound
  dsimp only
  split
  · exact setLimit s i _
  · exact refl s

/-! ### The section manager -/

theorem heatsinkUpdate (i : Fin 6) (v : Int) (s : State) : ReaderKept s (Machine.heatsinkUpdate i v s) := by
  unfold Machine.heatsinkUpdate
  dsimp only
  split
  · exact refl s
  · split <;> exact setSect s i _

theorem heatsinkLoss (i : Fin 6) (s : State) : ReaderKept s (Machine.heatsinkLoss i s) := by
  unfold Machine.heatsinkLoss
  dsimp only
  split
  · exact refl s
  · exact (setSect s i _).trans (raise _ _ _ _ _)

theorem thermalNow (i : Fin 6) (s : State) : ReaderKept s (Machine.thermalNow i s) := by
  unfold Machine.thermalNow
  split
  · exact heatsinkUpdate i _ s
  · exact heatsinkLoss i s

theorem statusUpdate (i : Fin 6) (v : Int) (s : State) : ReaderKept s (Machine.statusUpdate i v s) := by
  unfold Machine.statusUpdate
  dsimp only
  split
  · exact refl s
  · split
    · exact (setSect s i _).trans (raise _ _ _ _ _)
    · split
      · exact (setSect s i _).trans (raise _ _ _ _ _)
      · exact setSect s i _
      · exact refl s
      · exact refl s
    · split <;> first | exact setSect s i _ | exact refl s
    · split <;> first | exact setSect s i _ | exact refl s

theorem statusLoss (i : Fin 6) (s : State) : ReaderKept s (Machine.statusLoss i s) := by
  unfold Machine.statusLoss
  dsimp only
  split
  · exact (setSect s i _).trans (raise _ _ _ _ _)
  · exact refl s

/-! ### The yaw unit -/

theorem toStopping (mark : Bool) (s : State) : ReaderKept s (Machine.toStopping mark s) :=
  putYaw _ s

theorem yawAtCrossing (s : State) : ReaderKept s (Machine.yawAtCrossing s) := by
  unfold Machine.yawAtCrossing
  split
  · exact toStopping _ s
  · split
    · exact toStopping _ s
    · exact yawToHeld s
  · split
    · exact toStopping _ s
    · exact yawToHeld s
  · exact yawToHeld s
  · exact yawToHeld s
  · exact yawToHeld s
  · exact yawSet s _
  · exact yawSet s _
  · exact refl s

theorem hardCrossing (s : State) : ReaderKept s (Machine.hardCrossing s) :=
  (raise _ _ _ _ s).trans ((clearYawAuto _).trans ((stopDemand _ _).trans (yawAtCrossing _)))

theorem hardCheck (before : Bool) (s : State) : ReaderKept s (Machine.hardCheck before s) := by
  unfold Machine.hardCheck
  split
  · exact hardCrossing s
  · exact refl s

theorem hardStop (s : State) : ReaderKept s (Machine.hardStop s) := by
  unfold Machine.hardStop
  split
  · exact toStopping _ s
  · exact refl s

theorem unwindCheck (s : State) : ReaderKept s (Machine.unwindCheck s) := by
  unfold Machine.unwindCheck
  split
  · exact toStopping _ s
  · exact refl s

theorem advanceTwist (d : Int) (s : State) : ReaderKept s (Machine.advanceTwist d s) := by
  unfold Machine.advanceTwist
  dsimp only
  split
  · exact refl s
  · exact (yawSet s _).trans ((hardCheck _ _).trans ((hardStop _).trans (unwindCheck _)))

theorem headingUpdate (v : Int) (s : State) : ReaderKept s (Machine.headingUpdate v s) := by
  unfold Machine.headingUpdate
  dsimp only
  split
  · exact yawSet s _
  · split
    · exact (yawSet s _).trans (raise _ _ _ _ _)
    · exact (yawSet s _).trans (advanceTwist _ _)

theorem headingLoss (s : State) : ReaderKept s (Machine.headingLoss s) := by
  unfold Machine.headingLoss
  dsimp only
  split
  · exact (yawSet s _).trans ((yawToHeld _).trans (raise _ _ _ _ _))
  · exact yawSet s _

theorem vaneUpdate (v : Int) (s : State) : ReaderKept s (Machine.vaneUpdate v s) := by
  unfold Machine.vaneUpdate
  dsimp only
  split
  · split
    · exact toStopping _ s
    · exact refl s
  · split
    · exact toStopping _ s
    · exact refl s

theorem vaneLoss (s : State) : ReaderKept s (Machine.vaneLoss s) := by
  unfold Machine.vaneLoss
  split
  · exact toStopping _ s
  · exact refl s

/-! ### The cooling unit -/

theorem formFactor (s : State) : ReaderKept s (Machine.formFactor s) :=
  coolSet s _

theorem coolantUpdate (v : Int) (s : State) : ReaderKept s (Machine.coolantUpdate v s) :=
  (coolSet s _).trans (formFactor _)

theorem coolantLoss (s : State) : ReaderKept s (Machine.coolantLoss s) :=
  (coolSet s _).trans ((formFactor _).trans (raise _ _ _ _ _))

theorem guardTest (s : State) : ReaderKept s (Machine.guardTest s) := by
  unfold Machine.guardTest
  split
  · exact coolSet s _
  · exact refl s

theorem heaterJudge (s : State) : ReaderKept s (Machine.heaterJudge s) :=
  coolSet s _

theorem dryLossTest (s : State) : ReaderKept s (Machine.dryLossTest s) := by
  unfold Machine.dryLossTest
  dsimp only
  split
  · split
    · split
      · exact (coolSet s _).trans (raise _ _ _ _ _)
      · exact coolSet s _
    · exact refl s
  · split
    · split
      · exact (coolSet s _).trans (raise _ _ _ _ _)
      · exact coolSet s _
    · exact refl s

theorem formMargin (s : State) : ReaderKept s (Machine.formMargin s) :=
  (coolSet s _).trans ((guardTest _).trans ((heaterJudge _).trans (dryLossTest _)))

theorem coolingUpdate (ch : Fin 128) (v : Int) (s : State) : ReaderKept s (Machine.coolingUpdate ch v s) := by
  have h : ReaderKept s (if ch = s.coolCfg.tin then Machine.coolantUpdate v s else s) := by
    split
    · exact coolantUpdate v s
    · exact refl s
  unfold Machine.coolingUpdate
  dsimp only
  split
  · exact h.trans (formMargin _)
  · exact h

theorem coolingLoss (ch : Fin 128) (s : State) : ReaderKept s (Machine.coolingLoss ch s) := by
  have h : ReaderKept s (if ch = s.coolCfg.tin then Machine.coolantLoss s else s) := by
    split
    · exact coolantLoss s
    · exact refl s
  unfold Machine.coolingLoss
  dsimp only
  split
  · exact h.trans (formMargin _)
  · exact h

/-! ### Updates and losses -/

theorem updateWork (ch : Fin 128) (v : Int) (x : Reader) (s : State) :
    ReaderKept s (Machine.updateWork ch v x s) := by
  cases x with
  | own c value => exact raise _ _ _ _ s
  | limit i => exact evaluateLimit i v s
  | heatsink i => exact heatsinkUpdate i v s
  | status i => exact statusUpdate i v s
  | heading => exact headingUpdate v s
  | vane => exact vaneUpdate v s
  | cooling => exact coolingUpdate ch v s

theorem lossWork (ch : Fin 128) (empty : Bool) (x : Reader) (s : State) :
    ReaderKept s (Machine.lossWork ch empty x s) := by
  cases x with
  | own c value => exact raise _ _ _ _ s
  | limit i => exact limitLoss i empty s
  | heatsink i => exact heatsinkLoss i s
  | status i => exact statusLoss i s
  | heading => exact headingLoss s
  | vane => exact vaneLoss s
  | cooling => exact coolingLoss ch s

/-- A channel update leaves alone what its readers leave alone (R36, R38). -/
theorem giveUpdate (ch : Fin 128) (v : Int) (own : List Reader) (s : State) :
    ReaderKept s (Machine.giveUpdate ch v own s) :=
  inOpenOrder _ _ s fun x _ t => updateWork ch v x t

/-- A channel loss leaves alone what its readers leave alone (R36, R38). -/
theorem giveLoss (ch : Fin 128) (empty : Bool) (own : List Reader) (s : State) :
    ReaderKept s (Machine.giveLoss ch empty own s) :=
  inOpenOrder _ _ s fun x _ t => lossWork ch empty x t

end ReaderKept

end Sys2Proof.Machine
end

