-- ==== Sys2Proof/Laws/Channels.lean ====
section
/-! SUPPORT. What becoming INVALID, becoming STALE and processing a code can do, said once. -/

namespace Sys2Proof.Machine

/-- One of the rises that go with a loss has happened once the loss has been handed out. -/
theorem giveLoss_raises (ch : Fin 128) (empty : Bool) (c : Fin 128) (v : Half) (s : State) :
    (giveLoss ch empty [.own c v] s).causes[c].pending = true :=
  inOpenOrder_reaches (P := fun t => t.causes[c].pending = true) _ s (x := .own c v) (by simp)
    (fun t => raise_pending_self c _ _ _ t) (fun a _ t ht => (ReaderKept.lossWork ch empty a t).mono c ht)

/-- One of the rises that go with an update has happened once the update has been handed out. -/
theorem giveUpdate_raises (ch : Fin 128) (x : Int) (c : Fin 128) (v : Half) (s : State) :
    (giveUpdate ch x [.own c v] s).causes[c].pending = true :=
  inOpenOrder_reaches (P := fun t => t.causes[c].pending = true) _ s (x := .own c v) (by simp)
    (fun t => raise_pending_self c _ _ _ t) (fun a _ t ht => (ReaderKept.updateWork ch x a t).mono c ht)

/-- The work of a reader at a loss demands no stop: the supervisor and STOP_OUT are as before. -/
theorem lossWork_sup (ch : Fin 128) (empty : Bool) (x : Reader) (s : State) :
    (lossWork ch empty x s).sup = s.sup ∧ (lossWork ch empty x s).lines.stopOut = s.lines.stopOut := by
  have margin : ∀ t : State, (formMargin t).sup = t.sup ∧ (formMargin t).lines = t.lines := by
    intro t
    have raiseIf : ∀ (p : Prop) (h : Decidable p) (u w : State), u.sup = w.sup → u.lines = w.lines →
        (if p then u else w).sup = w.sup ∧ (if p then u else w).lines = w.lines := by
      intro p h u w h1 h2
      split
      · exact ⟨h1, h2⟩
      · exact ⟨rfl, rfl⟩
    have guard : ∀ u : State, (guardTest u).sup = u.sup ∧ (guardTest u).lines = u.lines := by
      intro u
      unfold guardTest
      split <;> exact ⟨rfl, rfl⟩
    have dry : ∀ u : State, (dryLossTest u).sup = u.sup ∧ (dryLossTest u).lines = u.lines := by
      intro u
      unfold dryLossTest
      dsimp only
      refine raiseIf _ _ _ _ ?_ ?_ <;> (split <;> simp)
    obtain ⟨d1, d2⟩ := dry (heaterJudge (guardTest { t with cool := { t.cool with margin := marginNow t } }))
    obtain ⟨g1, g2⟩ := guard { t with cool := { t.cool with margin := marginNow t } }
    exact ⟨d1.trans g1, d2.trans g2⟩
  cases x with
  | own c value => simp [lossWork]
  | limit i =>
    simp only [lossWork, limitLoss]
    split
    · exact ⟨rfl, rfl⟩
    · split
      · simp [levelEntered]
      · exact ⟨rfl, rfl⟩
  | heatsink i =>
    simp only [lossWork, heatsinkLoss]
    split <;> simp
  | status i =>
    simp only [lossWork, statusLoss]
    split <;> simp
  | heading =>
    simp only [lossWork, headingLoss]
    split
    · rw [yawToHeld_frame]; simp
    · exact ⟨rfl, rfl⟩
  | vane =>
    simp only [lossWork, vaneLoss]
    split <;> exact ⟨rfl, rfl⟩
  | cooling =>
    have cold : (coolantLoss s).sup = s.sup ∧ (coolantLoss s).lines = s.lines := by
      simp [coolantLoss, formFactor]
    simp only [lossWork, coolingLoss]
    split
    · split
      · obtain ⟨m1, m2⟩ := margin (coolantLoss s)
        exact ⟨m1.trans cold.1, by rw [m2, cold.2]⟩
      · obtain ⟨m1, m2⟩ := margin s
        exact ⟨m1, by rw [m2]⟩
    · split
      · exact ⟨cold.1, by rw [cold.2]⟩
      · exact ⟨rfl, rfl⟩

/-- A channel loss demands no stop. -/
theorem giveLoss_sup (ch : Fin 128) (empty : Bool) (own : List Reader) (s : State) :
    (giveLoss ch empty own s).sup = s.sup ∧ (giveLoss ch empty own s).lines.stopOut = s.lines.stopOut :=
  inOpenOrder_keeps (P := fun t => t.sup = s.sup ∧ t.lines.stopOut = s.lines.stopOut) _ s
    (fun t ht => by unfold State.choiceMade; split <;> exact ht)
    (fun x _ t ht => ⟨(lossWork_sup ch empty x t).1.trans ht.1, (lossWork_sup ch empty x t).2.trans ht.2⟩)
    ⟨rfl, rfl⟩

/-- A channel that is not INVALID becomes INVALID; its readers aside, nothing else changes (R32). -/
theorem codeInvalid_spec (ch : Fin 128) (code : Half) (seen : Channel) (s : State)
    (h : seen.state ≠ .invalid) :
    ReaderKept (s.setChannel ch { seen with state := .invalid }) (codeInvalid ch code seen s) ∧
      (codeInvalid ch code seen s).causes[CauseNo.channelInvalid].pending = true := by
  unfold codeInvalid
  split
  · rename_i e; exact absurd e h
  · exact ⟨ReaderKept.giveLoss .., giveLoss_raises ..⟩
  · exact ⟨ReaderKept.raise .., raise_pending_self ..⟩
  · exact ⟨ReaderKept.raise .., raise_pending_self ..⟩

/-- Once a channel has become STALE, CHANNEL_STALE is pending, and its readers aside nothing else changes
(R36, R41). -/
theorem leftForStale_spec (was : ChanState) (ch : Fin 128) (value : Half) (s : State) :
    ReaderKept s (leftForStale was ch value s) ∧
      (leftForStale was ch value s).causes[CauseNo.channelStale].pending = true := by
  unfold leftForStale
  split
  · exact ⟨ReaderKept.giveLoss .., giveLoss_raises ..⟩
  · exact ⟨ReaderKept.raise .., raise_pending_self ..⟩

/-- The loss of a channel that has become STALE demands no stop. -/
theorem leftForStale_sup (was : ChanState) (ch : Fin 128) (value : Half) (s : State) :
    (leftForStale was ch value s).sup = s.sup ∧
      (leftForStale was ch value s).lines.stopOut = s.lines.stopOut := by
  unfold leftForStale
  split
  · exact giveLoss_sup ..
  · simp

/-- A channel that becomes STALE has the record given, CHANNEL_STALE is pending, and its readers aside nothing
else changes (R37, R41). -/
theorem makeStale_spec (ch : Fin 128) (value : Half) (c : Channel) (s : State) :
    ReaderKept (s.setChannel ch { c with state := .stale }) (makeStale ch value c s) ∧
      (makeStale ch value c s).causes[CauseNo.channelStale].pending = true :=
  leftForStale_spec ..

/-- Becoming STALE demands no stop. -/
theorem makeStale_sup (ch : Fin 128) (value : Half) (c : Channel) (s : State) :
    (makeStale ch value c s).sup = s.sup ∧ (makeStale ch value c s).lines.stopOut = s.lines.stopOut :=
  leftForStale_sup ..

/-- A code processed to a value makes its channel LIVE with that value; its readers aside, nothing else changes
(R35, R36). -/
theorem codeValue_spec (ch : Fin 128) (v : Int) (own : List Reader) (seen : Channel) (s : State) :
    ReaderKept (s.setChannel ch { seen with state := .live, value := v }) (codeValue ch v own seen s) :=
  ReaderKept.giveUpdate ..

/-- Processing of a code changes one channel, and otherwise what the readers of a channel change (R31 to
R35). -/
theorem processCode_spec (ch : Fin 128) (code : Half) (good : Bool) (s : State) :
    ∃ c, ReaderKept (s.setChannel ch c) (processCode ch code good s) := by
  have same : s.setChannel ch s.channels[ch] = s := by
    simp [State.setChannel]
  have invalid : ∀ seen, ∃ c, ReaderKept (s.setChannel ch c) (codeInvalid ch code seen s) := by
    intro seen
    by_cases h : seen.state = .invalid
    · refine ⟨seen, ?_⟩
      unfold codeInvalid
      rw [h]
      exact ReaderKept.refl _
    · exact ⟨_, (codeInvalid_spec ch code seen s h).1⟩
  unfold processCode
  dsimp only
  split
  · exact ⟨s.channels[ch], by rw [same]; exact ReaderKept.refl s⟩
  · split
    · exact ⟨_, ReaderKept.refl _⟩
    · split
      · exact invalid _
      · split
        · split
          · exact invalid _
          · exact ⟨_, codeValue_spec ..⟩
        · exact ⟨_, codeValue_spec ..⟩

end Sys2Proof.Machine
end

