-- ==== Sys2Proof/Laws/Cells.lean ====
section
/-! SUPPORT. Cells on the two ports: what a check brings, what a position of a leg does, and which command-plan
entry or window a slot belongs to. -/

namespace Sys2Proof.Machine

/-! ### The check of a cell -/

theorem checkCell_eq_checked (port : Nat) (c : Cell) (pos : Nat) (s : State) :
    checkCell port c pos s = checked port c pos s := rfl

/-- A cell that passes its check brings nothing about. -/
theorem checked_of_passes (port : Nat) (c : Cell) (pos : Nat) (s : State) (h : cellPasses c pos = true) :
    checked port c pos s = s := by
  unfold checked; rw [if_pos h]

@[simp] theorem checked_reply (port : Nat) (c : Cell) (pos : Nat) (s : State) :
    (checked port c pos s).reply = s.reply := by
  unfold checked; split <;> simp
@[simp] theorem checked_windows (port : Nat) (c : Cell) (pos : Nat) (s : State) :
    (checked port c pos s).windows = s.windows := by
  unfold checked; split <;> simp
@[simp] theorem checked_lowHalf (port : Nat) (c : Cell) (pos : Nat) (s : State) :
    (checked port c pos s).lowHalf = s.lowHalf := by
  unfold checked; split <;> simp
@[simp] theorem checked_channels (port : Nat) (c : Cell) (pos : Nat) (s : State) :
    (checked port c pos s).channels = s.channels := by
  unfold checked; split <;> simp
@[simp] theorem checked_curves (port : Nat) (c : Cell) (pos : Nat) (s : State) :
    (checked port c pos s).curves = s.curves := by
  unfold checked; split <;> simp
@[simp] theorem checked_limits (port : Nat) (c : Cell) (pos : Nat) (s : State) :
    (checked port c pos s).limits = s.limits := by
  unfold checked; split <;> simp
@[simp] theorem checked_sects (port : Nat) (c : Cell) (pos : Nat) (s : State) :
    (checked port c pos s).sects = s.sects := by
  unfold checked; split <;> simp
@[simp] theorem checked_power (port : Nat) (c : Cell) (pos : Nat) (s : State) :
    (checked port c pos s).power = s.power := by
  unfold checked; split <;> simp
@[simp] theorem checked_yawCfg (port : Nat) (c : Cell) (pos : Nat) (s : State) :
    (checked port c pos s).yawCfg = s.yawCfg := by
  unfold checked; split <;> simp
@[simp] theorem checked_yaw (port : Nat) (c : Cell) (pos : Nat) (s : State) :
    (checked port c pos s).yaw = s.yaw := by
  unfold checked; split <;> simp
@[simp] theorem checked_coolCfg (port : Nat) (c : Cell) (pos : Nat) (s : State) :
    (checked port c pos s).coolCfg = s.coolCfg := by
  unfold checked; split <;> simp
@[simp] theorem checked_cool (port : Nat) (c : Cell) (pos : Nat) (s : State) :
    (checked port c pos s).cool = s.cool := by
  unfold checked; split <;> simp
@[simp] theorem checked_pumps (port : Nat) (c : Cell) (pos : Nat) (s : State) :
    (checked port c pos s).pumps = s.pumps := by
  unfold checked; split <;> simp
@[simp] theorem checked_ring (port : Nat) (c : Cell) (pos : Nat) (s : State) :
    (checked port c pos s).ring = s.ring := by
  unfold checked; split <;> simp
@[simp] theorem checked_sup (port : Nat) (c : Cell) (pos : Nat) (s : State) :
    (checked port c pos s).sup = s.sup := by
  unfold checked; split <;> simp
@[simp] theorem checked_lines (port : Nat) (c : Cell) (pos : Nat) (s : State) :
    (checked port c pos s).lines = s.lines := by
  unfold checked; split <;> simp
@[simp] theorem checked_plan (port : Nat) (c : Cell) (pos : Nat) (s : State) :
    (checked port c pos s).plan = s.plan := by
  unfold checked; split <;> simp
@[simp] theorem checked_choices (port : Nat) (c : Cell) (pos : Nat) (s : State) :
    (checked port c pos s).choices = s.choices := by
  unfold checked; split <;> simp
@[simp] theorem checked_choiceNo (port : Nat) (c : Cell) (pos : Nat) (s : State) :
    (checked port c pos s).choiceNo = s.choiceNo := by
  unfold checked; split <;> simp
@[simp] theorem checked_pending (port : Nat) (c : Cell) (pos : Nat) (s : State) :
    (checked port c pos s).pending = s.pending := by
  unfold checked; split <;> simp
@[simp] theorem checked_delivering (port : Nat) (c : Cell) (pos : Nat) (s : State) :
    (checked port c pos s).reports.delivering = s.reports.delivering := by
  unfold checked; split <;> simp

/-- The check of a cell and an update of the ring that keeps the stamp may change places. -/
theorem checked_with_ring (port : Nat) (c : Cell) (pos : Nat) (s : State) (r : Ring)
    (h : r.extCount = s.ring.extCount) :
    checked port c pos { s with ring := r } = { checked port c pos s with ring := r } := by
  unfold checked
  split
  · rfl
  · exact raise_with_ring _ _ _ _ s r h

/-! ### Owners of slots -/

/-- No enabled command-plan entry names the slot. -/
theorem planFor_eq_none (s : State) (pos : Nat)
    (h : ∀ k : Fin 16, s.plan[k].enable = true → s.plan[k].slot ≠ pos) : planFor s pos = none := by
  simp only [planFor, lowestIdx, List.find?_eq_none]
  intro k _
  have := h k
  simp only [Fin.getElem_fin, Bool.and_eq_true, decide_eq_true_eq, not_and] at this ⊢
  exact this

/-- One enabled command-plan entry alone names the slot. -/
theorem planFor_eq_some (s : State) (pos : Nat) (k : Fin 16) (h1 : s.plan[k].enable = true)
    (h2 : s.plan[k].slot = pos)
    (h : ∀ j : Fin 16, s.plan[j].enable = true → s.plan[j].slot = pos → j = k) : planFor s pos = some k := by
  cases hp : planFor s pos with
  | none =>
    simp only [planFor, lowestIdx, List.find?_eq_none] at hp
    exact absurd (by simp only [h1, h2, decide_true, Bool.and_self]) (hp k (List.mem_finRange k))
  | some j =>
    have := List.find?_some hp
    simp only [Bool.and_eq_true, decide_eq_true_eq] at this
    rw [h j this.1 this.2]

/-- The owner of a slot is an enabled window whose span contains it (R21). -/
theorem ownerOf_spans (s : State) (pos : Nat) (i : Fin 32) (h : ownerOf s pos = some i) :
    s.windows[i].enable = true ∧ s.windows[i].base ≤ pos ∧ pos < s.windows[i].base + s.windows[i].size := by
  have := List.find?_some h
  simpa [Window.spans] using this

/-- A slot of no enabled window has no owner (R21). -/
theorem ownerOf_eq_none (s : State) (pos : Nat)
    (h : ∀ i : Fin 32, s.windows[i].enable = true →
      ¬ (s.windows[i].base ≤ pos ∧ pos < s.windows[i].base + s.windows[i].size)) : ownerOf s pos = none := by
  simp only [ownerOf, lowestIdx, List.find?_eq_none]
  intro i _
  have := h i
  simp only [Fin.getElem_fin, Window.spans, Bool.and_eq_true, decide_eq_true_eq, not_and] at this ⊢
  exact fun a b => this a b

/-! ### Positions of the two legs -/

/-- A cell at a position of a round that is forwarded (R1, R6): the port counts it, it is checked, and the slot
does its work. -/
theorem towerPortCell_forwarding {s : State} {p : TowerCount} {pos now : Nat} (c : Cell)
    (h : Forwarding s p pos now) : towerPortCell c now s =
      forwardSlot c pos { checked 0 c pos s with ring := { s.ring with port := portAfter p } } := by
  obtain ⟨h1, h2, h3, h4, h5⟩ := h
  simp only [towerPortCell, awaitDue, h2]
  rw [if_neg (Nat.not_le.2 h5)]
  simp only [h2, h4, h3, checkCell_eq_checked, Bool.true_and]
  have e : portAdvanced p s = { s with ring := { s.ring with port := portAfter p } } := rfl
  rw [e, if_pos (by simpa using h1), checked_with_ring 0 c pos s]
  rfl

/-- A cell before the tail of the upstream leg (R10): the position is counted, the cell is checked, and the slot
does its work. -/
theorem nodeInCell_returning {s : State} {o : RoundOut} {pos : Nat} (c : Cell) (h : Returning s o pos)
    (hp : pos < o.last) : nodeInCell c s = upstreamSlot c pos
      { checked 1 c pos s with ring := { s.ring with roundOut := some { o with nextPos := pos + 1 } } } := by
  obtain ⟨h1, h2, h3⟩ := h
  simp only [nodeInCell, h1, h2, upstreamCell, h3, checkCell_eq_checked, if_true]
  rw [if_neg (Nat.not_le.2 hp), checked_with_ring 1 c pos s]
  rfl

/-- The tail of the upstream leg (R12): the slot's work, and then the close by return. -/
theorem nodeInCell_tail {s : State} {o : RoundOut} (c : Cell) (h : Returning s o o.last) :
    nodeInCell c s = closeByReturn (upstreamSlot c o.last
      { checked 1 c o.last s with ring := { s.ring with roundOut := some { o with nextPos := o.last + 1 } } }) := by
  obtain ⟨h1, h2, h3⟩ := h
  simp only [nodeInCell, h1, h2, upstreamCell, h3, checkCell_eq_checked, if_true, Nat.le_refl]
  rw [checked_with_ring 1 c o.last s]
  rfl

/-- A node slot of the downstream leg (R6, R9). -/
theorem forwardSlot_node (c : Cell) (pos : Nat) (s : State) (h : 9 ≤ pos) :
    forwardSlot c pos s = nodeSlotDown c pos s := by
  unfold forwardSlot
  split <;> first | omega | rfl

/-- A node slot of the upstream leg (R10). -/
theorem upstreamSlot_node (c : Cell) (pos : Nat) (s : State) (h : 9 ≤ pos) :
    upstreamSlot c pos s = nodeSlotUp c pos s := by
  unfold upstreamSlot
  rw [if_neg (by omega), if_neg (by omega)]

end Sys2Proof.Machine
end

