-- ==== Sys2Proof/Laws/Blocks.lean ====
section
/-! SUPPORT. What the close work of the blocks leaves alone, and what a close does to the ring interface. -/

namespace Sys2Proof.Machine

/-- What no work of a block touches; and no such work lowers a cause. -/
structure BlockKept (s t : State) : Prop where
  ring       : t.ring = s.ring
  reply      : t.reply = s.reply
  windows    : t.windows = s.windows
  curves     : t.curves = s.curves
  yawCfg     : t.yawCfg = s.yawCfg
  coolCfg    : t.coolCfg = s.coolCfg
  plan       : t.plan = s.plan
  queue      : t.pending = s.pending
  estopIn    : t.lines.estopIn = s.lines.estopIn
  serviceKey : t.lines.serviceKey = s.lines.serviceKey
  delivering : t.reports.delivering = s.reports.delivering
  mono       : ∀ d : Fin 128, s.causes[d].pending = true → t.causes[d].pending = true

theorem ReaderKept.block {s t : State} (h : ReaderKept s t) : BlockKept s t where
  ring := h.ring
  reply := h.reply
  windows := h.windows
  curves := h.curves
  yawCfg := h.yawCfg
  coolCfg := h.coolCfg
  plan := h.plan
  queue := h.queue
  estopIn := h.estopIn
  serviceKey := h.serviceKey
  delivering := h.delivering
  mono := h.mono

namespace BlockKept

theorem refl (s : State) : BlockKept s s := (ReaderKept.refl s).block

theorem trans {s t u : State} (h : BlockKept s t) (k : BlockKept t u) : BlockKept s u where
  ring := k.ring.trans h.ring
  reply := k.reply.trans h.reply
  windows := k.windows.trans h.windows
  curves := k.curves.trans h.curves
  yawCfg := k.yawCfg.trans h.yawCfg
  coolCfg := k.coolCfg.trans h.coolCfg
  plan := k.plan.trans h.plan
  queue := k.queue.trans h.queue
  estopIn := k.estopIn.trans h.estopIn
  serviceKey := k.serviceKey.trans h.serviceKey
  delivering := k.delivering.trans h.delivering
  mono := fun d hd => k.mono d (h.mono d hd)

theorem inOpenOrder {α : Type} (l : List α) (f : α → State → State) (s : State)
    (h : ∀ a ∈ l, ∀ t, BlockKept t (f a t)) : BlockKept s (Machine.inOpenOrder l f s) :=
  inOpenOrder_keeps (P := BlockKept s) l s (fun t ht => ht.trans (ReaderKept.choiceMade t).block)
    (fun a ha t ht => ht.trans (h a ha t)) (refl s)

theorem yawSet (s : State) (y : Yaw) : BlockKept s { s with yaw := y } := (ReaderKept.yawSet s y).block

theorem coolSet (s : State) (c : Cool) : BlockKept s { s with cool := c } := (ReaderKept.coolSet s c).block

theorem powerSet (s : State) (p : Power) : BlockKept s { s with power := p } := by
  constructor <;> first | rfl | exact fun _ h => h

theorem lowHalfSet (s : State) (h : Option LowHalf) : BlockKept s { s with lowHalf := h } := by
  constructor <;> first | rfl | exact fun _ h => h

theorem channelsSet (s : State) (c : Vector Channel 128) : BlockKept s { s with channels := c } := by
  constructor <;> first | rfl | exact fun _ h => h

theorem sectsSet (s : State) (c : Vector Sect 6) : BlockKept s { s with sects := c } := by
  constructor <;> first | rfl | exact fun _ h => h

theorem pumpsSet (s : State) (c : Vector Pump 3) : BlockKept s { s with pumps := c } := by
  constructor <;> first | rfl | exact fun _ h => h

theorem setChannel (s : State) (i : Fin 128) (c : Channel) : BlockKept s (s.setChannel i c) :=
  channelsSet s _

theorem setPump (s : State) (i : Fin 3) (p : Pump) : BlockKept s (s.setPump i p) :=
  pumpsSet s _

theorem raise (c : Fin 128) (a : RecAction) (sub : Subject) (v : Option Half) (s : State) :
    BlockKept s (Machine.raise c a sub v s) := (ReaderKept.raise c a sub v s).block

theorem clearRunEnable (s : State) : BlockKept s (Machine.clearRunEnable s) := by
  constructor <;> first | rfl | exact fun _ h => h

theorem holdOnline (s : State) : BlockKept s (Machine.holdOnline s) := sectsSet s _

/-! ### The channel unit -/

theorem processCode (ch : Fin 128) (code : Half) (good : Bool) (s : State) :
    BlockKept s (Machine.processCode ch code good s) := by
  obtain ⟨c, h⟩ := processCode_spec ch code good s
  exact (setChannel s ch c).trans h.block

theorem discardHalf (h : LowHalf) (slot : Nat) (s : State) : BlockKept s (Machine.discardHalf h slot s) :=
  (lowHalfSet s _).trans (raise _ _ _ _ _)

theorem settleHalf (keep : LowHalf → Bool) (s : State) : BlockKept s (Machine.settleHalf keep s) := by
  unfold Machine.settleHalf
  split
  · split
    · exact refl s
    · exact discardHalf _ _ s
  · exact refl s

theorem wideSlot (ch : Fin 128) (x : SlotContent) (pos : Nat) (s : State) :
    BlockKept s (Machine.wideSlot ch x pos s) := by
  unfold Machine.wideSlot
  split
  · exact processCode _ _ _ s
  · exact raise _ _ _ _ s
  · exact refl s
  · exact refl s

theorem evenSlot (ch : Fin 128) (x : SlotContent) (pos : Nat) (s : State) :
    BlockKept s (Machine.evenSlot ch x pos s) := by
  unfold Machine.evenSlot
  split
  · exact lowHalfSet s _
  · exact raise _ _ _ _ s
  · exact refl s
  · exact refl s

theorem oddSlot (ch : Fin 128) (x : SlotContent) (pos : Nat) (s : State) :
    BlockKept s (Machine.oddSlot ch x pos s) := by
  have missing : ∀ t : State, BlockKept t (match t.lowHalf with
      | some h => Machine.discardHalf h pos t
      | none => t) := by
    intro t
    split
    · exact discardHalf _ _ t
    · exact refl t
  unfold Machine.oddSlot
  dsimp only
  split
  · split
    · exact (lowHalfSet s _).trans (processCode _ _ _ _)
    · exact raise _ _ _ _ s
  · exact (raise _ _ _ _ s).trans (missing _)
  · exact missing s
  · exact missing s

/-- What a node slot brings about at the channel unit and beyond it (R25 to R36). -/
theorem handOver (x : SlotContent) (pos : Nat) (s : State) : BlockKept s (Machine.handOver x pos s) := by
  unfold Machine.handOver
  split
  · exact settleHalf _ s
  · dsimp only
    split
    · exact (settleHalf _ s).trans (wideSlot _ _ _ _)
    · split
      · exact (settleHalf _ s).trans (evenSlot _ _ _ _)
      · exact (settleHalf _ s).trans (oddSlot _ _ _ _)

theorem channelsWarmReset (s : State) : BlockKept s (Machine.channelsWarmReset s) :=
  BlockKept.trans (t := { s with channels := s.channels.map channelWarm, lowHalf := none })
    ((channelsSet s (s.channels.map channelWarm)).trans (lowHalfSet _ none))
    (inOpenOrder _ _ _ fun ch _ t => (leftForStale_spec s.channels[ch].state ch 0 t).1.block)

theorem makeStale (ch : Fin 128) (value : Half) (c : Channel) (s : State) :
    BlockKept s (Machine.makeStale ch value c s) :=
  (setChannel s ch _).trans (makeStale_spec ch value c s).1.block

theorem channelStale (ch : Fin 128) (s : State) : BlockKept s (Machine.channelStale ch s) := by
  unfold Machine.channelStale
  split
  · exact makeStale _ _ _ s
  · exact refl s

theorem channelsClose (s : State) : BlockKept s (Machine.channelsClose s) := by
  unfold Machine.channelsClose
  refine (channelsSet s _).trans (inOpenOrder _ _ _ fun x _ t => ?_)
  cases x with
  | half h => exact discardHalf h _ t
  | stale ch => exact channelStale ch t

theorem releaseForce (ch : Fin 128) (s : State) : BlockKept s (Machine.releaseForce ch s) := by
  unfold Machine.releaseForce
  split
  · exact makeStale _ _ _ s
  · exact refl s

theorem setForce (ch : Fin 128) (v : Int) (s : State) : BlockKept s (Machine.setForce ch v s) :=
  (setChannel s ch _).trans (ReaderKept.giveUpdate _ _ _ _).block

theorem bindLimits (ch : Fin 128) (s : State) : BlockKept s (Machine.bindLimits ch s) :=
  foldl_keeps (P := BlockKept s) _ (fun i _ t ht => ht.trans (ReaderKept.limitBound i t).block) _ (refl s)

theorem channelWritten (ch : Fin 128) (c : Channel) (s : State) :
    BlockKept s (Machine.channelWritten ch c s) := by
  unfold Machine.channelWritten
  dsimp only
  split
  · exact setChannel s ch _
  · exact (setChannel s ch _).trans (ReaderKept.giveLoss _ _ _ _).block
  · exact (setChannel s ch _).trans ((raise _ _ _ _ _).trans (bindLimits ch _))
  · split
    · exact setChannel s ch _
    · exact makeStale _ _ _ s

/-! ### The section manager and the dispatch unit -/

theorem sectionsClose (s : State) : BlockKept s (Machine.sectionsClose s) := sectsSet s _

theorem setpointLost (s : State) : BlockKept s (Machine.setpointLost s) := by
  unfold Machine.setpointLost
  split
  · exact (powerSet s _).trans ((raise _ _ _ _ _).trans (powerSet _ _))
  · exact refl s

theorem powerClose (s : State) : BlockKept s (Machine.powerClose s) := by
  have h : BlockKept s (requestAtClose s) := by
    unfold requestAtClose
    dsimp only
    split
    · exact (powerSet s _).trans (powerSet _ _)
    · exact (powerSet s _).trans (setpointLost _)
  exact h.trans (powerSet _ _)

/-! ### The yaw unit -/

theorem putYaw (y : Yaw) (s : State) : BlockKept s (Machine.putYaw y s) := (ReaderKept.putYaw y s).block

theorem yawToHeld (s : State) : BlockKept s (Machine.yawToHeld s) := (ReaderKept.yawToHeld s).block

theorem beginSlew (m : YawMode) (s : State) : BlockKept s (Machine.beginSlew m s) :=
  (putYaw _ s).trans (ReaderKept.unwindCheck _).block

theorem releaseEnd (s : State) : BlockKept s (Machine.releaseEnd s) := by
  unfold Machine.releaseEnd enterSlew
  split
  · split
    · exact putYaw _ s
    · split
      · split
        · exact beginSlew _ s
        · exact putYaw _ s
      · exact beginSlew _ s
  · exact refl s

theorem brakeStuck (s : State) : BlockKept s (Machine.brakeStuck s) := by
  unfold Machine.brakeStuck
  split
  · exact (raise _ _ _ _ s).trans (yawToHeld _)
  · exact refl s

theorem groupBStart (s : State) : BlockKept s (Machine.groupBStart s) := by
  unfold Machine.groupBStart
  split
  · exact yawSet s _
  · exact refl s

theorem yawStall (s : State) : BlockKept s (Machine.yawStall s) := by
  unfold Machine.yawStall
  split
  · split
    · exact (raise _ _ _ _ s).trans (putYaw _ _)
    · exact yawSet s _
  · exact refl s

theorem yawOvertime (s : State) : BlockKept s (Machine.yawOvertime s) := by
  unfold Machine.yawOvertime
  split
  · exact (raise _ _ _ _ s).trans (putYaw _ _)
  · exact refl s

theorem jogEnd (s : State) : BlockKept s (Machine.jogEnd s) := by
  unfold Machine.jogEnd
  split
  · exact putYaw _ s
  · exact refl s

theorem coastEnd (s : State) : BlockKept s (Machine.coastEnd s) := by
  unfold Machine.coastEnd
  split
  · exact putYaw _ s
  · exact refl s

theorem brakeEnd (s : State) : BlockKept s (Machine.brakeEnd s) := by
  unfold Machine.brakeEnd
  split
  · split
    · exact yawToHeld s
    · exact (yawSet s _).trans (putYaw _ _)
  · exact refl s

theorem idleConfirm (s : State) : BlockKept s (Machine.idleConfirm s) := by
  unfold Machine.idleConfirm
  split
  · exact putYaw _ s
  · exact refl s

theorem unwindBlocked (s : State) : BlockKept s (Machine.unwindBlocked s) := by
  unfold Machine.unwindBlocked
  split
  · exact (raise _ _ _ _ s).trans (putYaw _ _)
  · exact refl s

theorem judgeWindow (s : State) : BlockKept s (Machine.judgeWindow s) := by
  unfold Machine.judgeWindow
  dsimp only
  split
  · exact (yawSet s _).trans (raise _ _ _ _ _)
  · exact yawSet s _

theorem startCounting (s : State) : BlockKept s (Machine.startCounting s) := by
  unfold Machine.startCounting
  split
  · split <;> exact yawSet s _
  · exact refl s

theorem automaticStart (s : State) : BlockKept s (Machine.automaticStart s) := by
  unfold Machine.automaticStart
  dsimp only
  generalize (if s.yaw.startPositive = true then Turn.cw else Turn.ccw) = d
  split
  · split
    · split
      · exact yawSet s _
      · exact (yawSet s _).trans (putYaw _ _)
    · exact (yawSet s _).trans (putYaw _ _)
  · exact refl s

theorem decimationTick (s : State) : BlockKept s (Machine.decimationTick s) := by
  unfold Machine.decimationTick
  split
  · exact (yawSet s _).trans ((judgeWindow _).trans ((startCounting _).trans (automaticStart _)))
  · exact refl s

theorem yawTimers (s : State) : BlockKept s (Machine.yawTimers s) := by
  unfold Machine.yawTimers
  dsimp only
  split
  · exact (yawSet s _).trans ((releaseEnd _).trans (brakeStuck _))
  · split
    · exact (yawSet s _).trans ((groupBStart _).trans ((yawStall _).trans ((yawOvertime _).trans (jogEnd _))))
    · split
      · exact (yawSet s _).trans (coastEnd _)
      · exact (yawSet s _).trans (brakeEnd _)
      · exact (yawSet s _).trans ((idleConfirm _).trans (unwindBlocked _))
      · exact refl s

theorem yawClose (s : State) : BlockKept s (Machine.yawClose s) :=
  (yawTimers s).trans ((yawSet _ _).trans (decimationTick _))

/-! ### The cooling unit -/

theorem reorderPumps (s : State) : BlockKept s (Machine.reorderPumps s) :=
  (coolSet s _).trans (pumpsSet _ _)

theorem requiredAtClose (s : State) : BlockKept s (Machine.requiredAtClose s) := by
  unfold Machine.requiredAtClose
  dsimp only
  split
  · exact refl s
  · exact (coolSet s _).trans (reorderPumps _)

theorem fileRecord (r : FaultRecord) (s : State) : BlockKept s (Machine.fileRecord r s) := by
  unfold Machine.fileRecord
  split
  · exact ⟨rfl, rfl, rfl, rfl, rfl, rfl, rfl, rfl, rfl, rfl, rfl, fun _ h => h⟩
  · refine ⟨rfl, rfl, rfl, rfl, rfl, rfl, rfl, rfl, rfl, rfl, rfl, fun d hd => ?_⟩
    simp only [Fin.getElem_fin, Vector.getElem_set]
    split
    · rfl
    · exact hd

theorem raisePumpFail (k : Fin 3) (how : PumpFailure) (s : State) :
    BlockKept s (Machine.raisePumpFail k how s) := by
  unfold Machine.raisePumpFail addPumpRecord
  split
  · split
    · exact fileRecord _ s
    · exact refl s
  · exact raise _ _ _ _ s

theorem failPump (k : Fin 3) (how : PumpFailure) (s : State) : BlockKept s (Machine.failPump k how s) :=
  (raisePumpFail k how s).trans ((setPump _ k _).trans (reorderPumps _))

theorem pumpStartFail (k : Fin 3) (s : State) : BlockKept s (Machine.pumpStartFail k s) := by
  unfold Machine.pumpStartFail
  split
  · exact failPump _ _ s
  · exact refl s

theorem pumpFlowFail (k : Fin 3) (s : State) : BlockKept s (Machine.pumpFlowFail k s) := by
  unfold Machine.pumpFlowFail
  split
  · exact failPump _ _ s
  · exact refl s

theorem judgeStarting (k : Fin 3) (s : State) : BlockKept s (Machine.judgeStarting k s) := by
  unfold Machine.judgeStarting
  dsimp only
  split
  · exact refl s
  · split
    · exact setPump s k _
    · exact (setPump s k _).trans (pumpStartFail _ _)

theorem judgeRunning (k : Fin 3) (s : State) : BlockKept s (Machine.judgeRunning k s) := by
  unfold Machine.judgeRunning
  dsimp only
  split
  · exact refl s
  · split
    · exact setPump s k _
    · exact (setPump s k _).trans (pumpFlowFail _ _)

theorem shortTest (s : State) : BlockKept s (Machine.shortTest s) := by
  unfold Machine.shortTest
  split
  · exact raise _ _ _ _ s
  · exact refl s

theorem runMinute (k : Fin 3) (s : State) : BlockKept s (Machine.runMinute k s) := by
  unfold Machine.runMinute
  dsimp only
  split
  · exact setPump s k _
  · exact refl s

theorem minuteTick (k : Fin 3) (s : State) : BlockKept s (Machine.minuteTick k s) := by
  unfold Machine.minuteTick
  dsimp only
  split
  · exact (setPump s k _).trans (runMinute _ _)
  · exact refl s

theorem formFactor (s : State) : BlockKept s (Machine.formFactor s) := coolSet s _

theorem pumpsAtClose (s : State) : BlockKept s (Machine.pumpsAtClose s) := by
  unfold Machine.pumpsAtClose
  dsimp only
  refine BlockKept.trans ?_ (formFactor _)
  refine foldl_keeps (P := BlockKept s) _ (fun k _ t ht => ht.trans (minuteTick k t)) _ ?_
  refine BlockKept.trans ?_ (shortTest _)
  refine BlockKept.trans ?_ (inOpenOrder _ _ _ fun k _ t => judgeRunning k t)
  exact (requiredAtClose s).trans (inOpenOrder _ _ _ fun k _ t => judgeStarting k t)

theorem thermalStageStep (s : State) : BlockKept s (Machine.thermalStageStep s) := by
  unfold Machine.thermalStageStep
  dsimp only
  split
  · exact coolSet s _
  · split
    · exact coolSet s _
    · exact refl s

theorem fanStep (s : State) : BlockKept s (Machine.fanStep s) := by
  unfold Machine.fanStep
  dsimp only
  split <;> exact coolSet s _

theorem dryConfirm (s : State) : BlockKept s (Machine.dryConfirm s) := by
  unfold Machine.dryConfirm
  split
  · exact coolSet s _
  · exact refl s

theorem thermalCounts (s : State) : BlockKept s (Machine.thermalCounts s) := coolSet s _

theorem stepCountTick (s : State) : BlockKept s (Machine.stepCountTick s) := coolSet s _

theorem dryCountTick (s : State) : BlockKept s (Machine.dryCountTick s) := coolSet s _

theorem coolingClose (s : State) : BlockKept s (Machine.coolingClose s) := by
  unfold Machine.coolingClose
  dsimp only
  refine BlockKept.trans ?_ (dryConfirm _)
  refine BlockKept.trans ?_ (dryCountTick _)
  refine BlockKept.trans ?_ (ReaderKept.guardTest _).block
  refine BlockKept.trans ?_ (fanStep _)
  refine BlockKept.trans ?_ (stepCountTick _)
  refine BlockKept.trans ?_ (thermalStageStep _)
  exact (pumpsAtClose s).trans (thermalCounts _)

theorem pumpsAfterWrite (s : State) : BlockKept s (Machine.pumpsAfterWrite s) :=
  (reorderPumps s).trans ((shortTest _).trans (formFactor _))

end BlockKept

/-! ### The start of the node-ring break -/

/-- The start of the node-ring break sets the condition, and touches nothing else of what block work leaves alone
(R14). -/
theorem ringBreak_kept (s : State) : BlockKept
    { s with ring := { s.ring with broken := s.ring.broken || decide (3 ≤ s.ring.lapses) } } (ringBreak s) := by
  unfold ringBreak breakDue
  split
  · rename_i h
    simp only [Bool.and_eq_true, decide_eq_true_eq, Bool.not_eq_true'] at h
    have e : (s.ring.broken || decide (3 ≤ s.ring.lapses)) = true := by simp [h.1]
    rw [e]
    refine BlockKept.trans ?_ (BlockKept.yawToHeld _)
    refine BlockKept.trans ?_ (BlockKept.holdOnline _)
    refine BlockKept.trans ?_ (ReaderKept.stopDemand _ _).block
    exact (BlockKept.raise _ _ _ _ _).trans (BlockKept.clearRunEnable _)
  · rename_i h
    have e : (s.ring.broken || decide (3 ≤ s.ring.lapses)) = s.ring.broken := by
      cases hb : s.ring.broken with
      | true => rfl
      | false =>
        simp only [hb, Bool.not_false, Bool.and_true, decide_eq_true_eq] at h
        simpa using h
    rw [e]
    exact BlockKept.refl s

/-- The close work of all blocks: of what block work leaves alone, only the break condition may change, and it
begins exactly when the lapse counter stands at 3 or more (R12 to R14). -/
theorem blocksClose_kept (s : State) : BlockKept
    { s with ring := { s.ring with broken := s.ring.broken || decide (3 ≤ s.ring.lapses) } }
    (blocksClose s) := by
  have block : ∀ b : Block, b ≠ .ringBreak → ∀ t, BlockKept t (blockClose b t) := by
    intro b hb t
    cases b with
    | channels => exact BlockKept.channelsClose t
    | sections => exact BlockKept.sectionsClose t
    | power => exact BlockKept.powerClose t
    | yaw => exact BlockKept.yawClose t
    | cooling => exact BlockKept.coolingClose t
    | ringBreak => exact absurd rfl hb
  unfold blocksClose
  by_cases due : breakDue s = true
  · rw [if_pos due]
    simp only [breakDue, Bool.and_eq_true, decide_eq_true_eq, Bool.not_eq_true'] at due
    have e : (s.ring.broken || decide (3 ≤ s.ring.lapses)) = true := by simp [due.1]
    rw [e]
    -- until the break has begun the ring is as it was; from then on it shows the break
    let whole : State := { s with ring := { s.ring with broken := true } }
    have step : ∀ (b : Block) (t : State), BlockKept s t ∨ BlockKept whole t →
        BlockKept s (blockClose b t) ∨ BlockKept whole (blockClose b t) := by
      intro b t ht
      by_cases hb : b = .ringBreak
      · subst hb
        right
        have k := ringBreak_kept t
        have r : ({ t.ring with broken := t.ring.broken || decide (3 ≤ t.ring.lapses) } : Ring) =
            { s.ring with broken := true } := by
          rcases ht with ht | ht <;> rw [ht.ring] <;> simp [whole, due.1]
        rw [r] at k
        refine BlockKept.trans (t := { t with ring := { s.ring with broken := true } }) ?_ k
        rcases ht with ht | ht <;>
          exact ⟨rfl, ht.reply, ht.windows, ht.curves, ht.yawCfg, ht.coolCfg, ht.plan, ht.queue, ht.estopIn,
            ht.serviceKey, ht.delivering, ht.mono⟩
      · exact ht.imp (fun h => h.trans (block b hb t)) (fun h => h.trans (block b hb t))
    refine inOpenOrder_reaches_of (I := fun t => BlockKept s t ∨ BlockKept whole t) (P := BlockKept whole) _ s
      (x := .ringBreak) (by simp) (.inl (BlockKept.refl s)) ?_ (fun b _ t ht => step b t ht) ?_ ?_
    · intro t ht
      exact ht.imp (fun h => h.trans (ReaderKept.choiceMade t).block)
        (fun h => h.trans (ReaderKept.choiceMade t).block)
    · intro t ht
      rcases step .ringBreak t ht with h | h
      · have k := (ringBreak_kept t).ring
        have r : t.ring.lapses = s.ring.lapses := by rcases ht with ht | ht <;> rw [ht.ring]
        have b1 : (blockClose .ringBreak t).ring.broken = true := by
          show (ringBreak t).ring.broken = true
          rw [k]; simp [r, due.1]
        rw [h.ring, due.2] at b1
        cases b1
      · exact h
    · intro b _ t _ ht
      by_cases hb : b = .ringBreak
      · subst hb
        have k := ringBreak_kept t
        have r : ({ t.ring with broken := t.ring.broken || decide (3 ≤ t.ring.lapses) } : Ring) = t.ring := by
          rw [ht.ring]; rfl
        rw [r] at k
        exact ht.trans k
      · exact ht.trans (block b hb t)
  · rw [if_neg due, List.append_nil]
    have e : (s.ring.broken || decide (3 ≤ s.ring.lapses)) = s.ring.broken := by
      simp only [breakDue, Bool.and_eq_true, decide_eq_true_eq, Bool.not_eq_true'] at due
      cases hb : s.ring.broken with
      | true => rfl
      | false => simpa using fun h => due ⟨h, hb⟩
    rw [e]
    refine BlockKept.inOpenOrder _ _ s fun b hb t => block b ?_ t
    rintro rfl
    simp at hb

end Sys2Proof.Machine
end

