-- ==== Sys2Proof/Laws/CoolingUnit.lean ====
section
/-! SUPPORT. What the pump operations of the cooling unit can do, said once. -/

namespace Sys2Proof.Machine

/-- Taking a place in the order list adds the pump and loses none (R135). -/
theorem mem_placePump (s : State) (a j : Fin 3) (l : List (Fin 3)) :
    j ∈ placePump s a l ↔ j = a ∨ j ∈ l := by
  induction l with
  | nil => simp [placePump]
  | cons b rest ih =>
    unfold placePump
    split
    · simp
    · simp only [List.mem_cons, ih]
      tauto

/-- The order list holds exactly the pumps that are present and not FAILED (R135). -/
theorem mem_rebuiltOrder (s : State) (j : Fin 3) :
    j ∈ rebuiltOrder s ↔ s.pumps[j].present = true ∧ s.pumps[j].state ≠ .failed := by
  have h : ∀ l : List (Fin 3), j ∈ l.foldr (placePump s) [] ↔ j ∈ l := by
    intro l
    induction l with
    | nil => simp
    | cons a l ih => rw [List.foldr_cons, mem_placePump, ih, List.mem_cons]
  unfold rebuiltOrder
  rw [h]
  simp [allIdx]

/-- The order of R135, spelled out. -/
theorem pumpBefore_iff (s : State) (a b : Fin 3) : pumpBefore s a b = true ↔
    inService s.pumps[a] = true ∧ inService s.pumps[b] = false ∨
      inService s.pumps[a] = inService s.pumps[b] ∧ (s.pumps[a].runMinutes < s.pumps[b].runMinutes ∨
        s.pumps[a].runMinutes = s.pumps[b].runMinutes ∧ a < b) := by
  unfold pumpBefore
  generalize s.pumps[a] = p
  generalize s.pumps[b] = q
  dsimp only
  by_cases e : p.runMinutes = q.runMinutes
  · cases inService p <;> cases inService q <;> simp [e]
  · cases inService p <;> cases inService q <;> simp [e]

/-- The order of R135 is transitive. -/
theorem pumpBefore_trans (s : State) (a b c : Fin 3) (h : pumpBefore s a b = true) (k : pumpBefore s b c = true) :
    pumpBefore s a c = true := by
  rw [pumpBefore_iff, Fin.lt_def] at *
  revert h k
  generalize s.pumps[a] = p
  generalize s.pumps[b] = q
  generalize s.pumps[c] = r
  cases inService p <;> cases inService q <;> cases inService r <;>
    simp only [reduceCtorEq, false_and, true_and, and_false, and_self, or_false, false_or, imp_self,
      implies_true, false_implies] <;> omega

/-- Of two pumps, one stands before the other (R135). -/
theorem pumpBefore_total (s : State) (a b : Fin 3) (h : a ≠ b) (k : ¬ pumpBefore s a b = true) :
    pumpBefore s b a = true := by
  have h := Fin.val_ne_of_ne h
  rw [pumpBefore_iff, Fin.lt_def] at *
  revert k
  generalize s.pumps[a] = p
  generalize s.pumps[b] = q
  cases inService p <;> cases inService q <;>
    simp only [reduceCtorEq, false_and, true_and, and_false, and_self, or_false, false_or, imp_self,
      implies_true, not_true_eq_false] <;> omega

/-- Taking its place keeps a list in the order of R135. -/
theorem placePump_pairwise (s : State) (a : Fin 3) (l : List (Fin 3)) (fresh : a ∉ l)
    (h : l.Pairwise fun a b => pumpBefore s a b = true) :
    (placePump s a l).Pairwise fun a b => pumpBefore s a b = true := by
  induction l with
  | nil => simp [placePump]
  | cons b rest ih =>
    obtain ⟨hb, hr⟩ := List.pairwise_cons.mp h
    obtain ⟨ab, ar⟩ : a ≠ b ∧ a ∉ rest := by simpa using fresh
    unfold placePump
    split
    · rename_i k
      refine List.pairwise_cons.mpr ⟨fun c hc => ?_, h⟩
      obtain rfl | hc := List.mem_cons.mp hc
      · exact k
      · exact pumpBefore_trans s a b c k (hb c hc)
    · rename_i k
      refine List.pairwise_cons.mpr ⟨fun c hc => ?_, ih ar hr⟩
      obtain rfl | hc := (mem_placePump ..).mp hc
      · exact pumpBefore_total s _ b ab k
      · exact hb c hc

/-- A rebuilt list stands in the order of R135. -/
theorem rebuiltOrder_pairwise (s : State) :
    (rebuiltOrder s).Pairwise fun a b => pumpBefore s a b = true := by
  have key : ∀ l : List (Fin 3), l.Nodup → (l.foldr (placePump s) []).Pairwise (fun a b => pumpBefore s a b = true) ∧
      ∀ j, j ∈ l.foldr (placePump s) [] ↔ j ∈ l := by
    intro l hl
    induction l with
    | nil => simp
    | cons a l ih =>
      obtain ⟨ha, hl⟩ := List.nodup_cons.mp hl
      obtain ⟨p, m⟩ := ih hl
      refine ⟨placePump_pairwise s a _ (by rwa [m]) p, fun j => ?_⟩
      rw [List.foldr_cons, mem_placePump, m, List.mem_cons]
  exact (key _ ((List.nodup_finRange 3).filter _)).1

/-- The order list follows from the pumps alone (R135). -/
theorem rebuiltOrder_congr {s t : State} (h : t.pumps = s.pumps) : rebuiltOrder t = rebuiltOrder s := by
  have p : ∀ a b, pumpBefore t a b = pumpBefore s a b := by
    intro a b
    unfold pumpBefore
    rw [h]
  have q : placePump t = placePump s := by
    funext a l
    induction l with
    | nil => rfl
    | cons b l ih => unfold placePump; rw [p, ih]
  unfold rebuiltOrder
  rw [h, q]

/-- The warm reset of the cooling unit follows from the pumps and the cooling settings alone (R150). -/
theorem coolingWarmReset_cool_congr {s t : State} (pumps : t.pumps = s.pumps) (cfg : t.coolCfg = s.coolCfg) :
    (coolingWarmReset t).cool = (coolingWarmReset s).cool := by
  unfold coolingWarmReset formFactor rebuildOrder runningCount
  dsimp only
  rw [pumps, cfg]
  congr 1
  exact rebuiltOrder_congr rfl

/-- The commanded flag is the one that is set (R136). -/
@[simp] theorem commandPump_commanded (on : Bool) (p : Pump) : (commandPump on p).commanded = on := by
  unfold commandPump
  split <;> rfl

/-- No flag takes a pump into FAILED or out of it (R136). -/
theorem commandPump_failed (on : Bool) (p : Pump) : (commandPump on p).state = .failed ↔ p.state = .failed := by
  unfold commandPump
  split <;> simp_all

/-- A commanded flag touches neither the configuration nor the run minutes nor the failure. -/
theorem commandPump_rest (on : Bool) (p : Pump) : (commandPump on p).present = p.present ∧
    (commandPump on p).flowChannel = p.flowChannel ∧ (commandPump on p).runMinutes = p.runMinutes ∧
    (commandPump on p).minuteCount = p.minuteCount ∧ (commandPump on p).failure = p.failure := by
  unfold commandPump
  split <;> simp

/-- The pumps after they have been put in order and commanded (R135, R136). -/
theorem reorderPumps_pump (s : State) (j : Fin 3) : (reorderPumps s).pumps[j] =
    commandPump (decide (j ∈ (rebuiltOrder s).take s.cool.required)) s.pumps[j] := by
  unfold reorderPumps commandPumps
  simp only [Fin.getElem_fin, Vector.getElem_ofFn]
  rfl

@[simp] theorem reorderPumps_order (s : State) : (reorderPumps s).cool.order = rebuiltOrder s := rfl

@[simp] theorem reorderPumps_required (s : State) : (reorderPumps s).cool.required = s.cool.required := rfl

theorem reorderPumps_frame (s : State) : reorderPumps s =
    { s with pumps := (reorderPumps s).pumps, cool := (reorderPumps s).cool } := rfl

/-- A failure touches causes and records alone until the pump is set (R148, R152). -/
theorem raisePumpFail_frame (k : Fin 3) (how : PumpFailure) (s : State) : raisePumpFail k how s =
    { s with causes := (raisePumpFail k how s).causes, reports := (raisePumpFail k how s).reports } := by
  unfold raisePumpFail addPumpRecord fileRecord
  split
  · split
    · split <;> rfl
    · rfl
  · rw [raise_frame]

/-- PUMP_FAIL is pending after each failure (R138). -/
theorem raisePumpFail_pending (k : Fin 3) (how : PumpFailure) (s : State) :
    (raisePumpFail k how s).causes[CauseNo.pumpFail].pending = true := by
  by_cases h : s.causes[CauseNo.pumpFail].pending = true
  · exact (BlockKept.raisePumpFail k how s).mono _ h
  · unfold raisePumpFail
    rw [if_neg (by simp only [recordOwed, Bool.and_eq_true]; exact fun e => h e.1.1)]
    exact raise_pending_self ..

/-- PUMPS_SHORT is the one thing that its judgement can bring about (R138). -/
theorem shortTest_frame (s : State) : shortTest s =
    { s with causes := (shortTest s).causes, reports := (shortTest s).reports } := by
  unfold shortTest
  split
  · rw [raise_frame]
  · rfl

theorem shortTest_mono (s : State) (d : Fin 128) (h : s.causes[d].pending = true) :
    (shortTest s).causes[d].pending = true := (BlockKept.shortTest s).mono d h

end Sys2Proof.Machine
end

