-- ==== Sys2Proof/Laws/YawUnit.lean ====
section
/-! SUPPORT. What the yaw unit's shared operations can do, said once. -/

namespace Sys2Proof.Machine

/-- The yaw's runtime after a window has been judged (R113 to R115). -/
theorem judgeWindow_yaw (s : State) : (judgeWindow s).yaw =
    let w := joinWindow (vaneEntry s) s.yaw.window
    let j := judge s.yawCfg.minValid w
    { s.yaw with
      window := w, judgement := j, mean := if j = .valid then some (windowMean w) else none
      factor := if s.yaw.unwindMark then s.yaw.factor else factorAt s j (windowMean w) } := by
  unfold judgeWindow
  dsimp only
  split
  · simp only [raise_yaw]
  · rfl

/-- Judging a window touches the yaw's runtime, and by a rise of VANE_BLIND the causes and the queue. -/
theorem judgeWindow_frame (s : State) : judgeWindow s =
    { s with yaw := (judgeWindow s).yaw, causes := (judgeWindow s).causes
             reports := (judgeWindow s).reports } := by
  unfold judgeWindow
  dsimp only
  split
  · rw [raise_frame]
  · rfl

/-- A BLIND judgement leaves VANE_BLIND pending (R114). -/
theorem judgeWindow_blind (s : State) (h : (judgeWindow s).yaw.judgement = .blind) :
    (judgeWindow s).causes[CauseNo.vaneBlind].pending = true := by
  rw [judgeWindow_yaw] at h
  unfold judgeWindow
  dsimp only at h ⊢
  rw [if_pos h]
  exact raise_pending_self _ _ _ _ _

/-- An entry joins a window of at most 64 entries, and the window stays within 64 (R113). -/
theorem joinWindow_length_le (e : Option Int) (w : List (Option Int)) (h : w.length ≤ 64) :
    (joinWindow e w).length ≤ 64 := by
  unfold joinWindow Config.windowCapacity
  split
  · simp only [List.length_append, List.length_singleton]; omega
  · simp only [List.length_append, List.length_tail, List.length_singleton]; omega

/-- A stop reason leaves the yaw permitted when it is neither RING_BREAK nor a cause of group G3 (R116). -/
theorem barsYaw_eq_false_iff (r : StopReason) :
    barsYaw r = false ↔ r ≠ .cause CauseNo.ringBreak ∧ ∀ c, r = .cause c → c.val / 16 ≠ 3 := by
  cases r with
  | none => simp [barsYaw]
  | management => simp [barsYaw]
  | cause c =>
    simp only [barsYaw, Bool.or_eq_false_iff, decide_eq_false_iff_not, StopReason.cause.injEq, ne_eq]
    exact ⟨fun ⟨a, b⟩ => ⟨b, by rintro d rfl; exact a⟩, fun ⟨a, b⟩ => ⟨b c rfl, a⟩⟩

/-- The four conditions of permission (R116). -/
theorem yawPermitted_iff (s : State) : yawPermitted s = true ↔
    (s.sup.nacelle = .operating ∨ s.sup.nacelle = .stopped ∧ s.sup.reason ≠ .cause CauseNo.ringBreak ∧
      ∀ c, s.sup.reason = .cause c → c.val / 16 ≠ 3) ∧
    s.ring.broken = false ∧ s.yaw.twistKnown = true ∧ s.channels[s.yawCfg.heading].state = .live := by
  simp only [yawPermitted, nacellePermits, usable, Bool.and_eq_true, Bool.or_eq_true, decide_eq_true_eq,
    Bool.not_eq_true', barsYaw_eq_false_iff, and_assoc]

/-- An automatic start that is not due, or not permitted, starts nothing (R116, R118). -/
theorem automaticStart_of_not_due (s : State)
    (h : ¬ (s.yaw.mode = .parked ∧ s.yawCfg.startTicks ≤ s.yaw.startCount ∧ yawPermitted s = true)) :
    automaticStart s = s :=
  if_neg h

/-- Outside PARKED a decimation tick judges the window and starts nothing (R118). -/
theorem decimationTick_of_not_parked (s : State) (h : s.yaw.mode ≠ .parked)
    (due : s.yawCfg.yawDecim ≤ s.yaw.tickCount) :
    decimationTick s = judgeWindow { s with yaw := { s.yaw with tickCount := 0 } } := by
  have m : (judgeWindow { s with yaw := { s.yaw with tickCount := 0 } }).yaw.mode ≠ .parked := by
    rw [judgeWindow_yaw]; exact h
  unfold decimationTick
  rw [if_pos due]
  have a : startCounting (judgeWindow { s with yaw := { s.yaw with tickCount := 0 } }) =
      judgeWindow { s with yaw := { s.yaw with tickCount := 0 } } := by
    unfold startCounting; rw [if_neg m]
  rw [a]
  exact automaticStart_of_not_due _ fun k => m k.1

/-- BRAKE_HOLD follows the brake demand of the state that is entered (R117, R173). -/
theorem putYaw_brakeHold (y : Yaw) (s : State) : (putYaw y s).lines.brakeHold = brakeApplied (putYaw y s).yaw.mode :=
  rfl

/-- The twist stays where it is at a hard-limit crossing (R112). -/
theorem hardCrossing_twist (s : State) : (hardCrossing s).yaw.twist = s.yaw.twist := by
  have h : ∀ t : State, (yawAtCrossing t).yaw.twist = t.yaw.twist := by
    intro t
    unfold yawAtCrossing
    split
    · rfl
    · split
      · rfl
      · exact yawToHeld_twist t
    · split
      · rfl
      · exact yawToHeld_twist t
    · exact yawToHeld_twist t
    · exact yawToHeld_twist t
    · exact yawToHeld_twist t
    · rfl
    · rfl
    · rfl
  unfold hardCrossing
  rw [h, stopDemand_twist]
  simp

end Sys2Proof.Machine
end

