-- ==== Sys2Proof/Laws/Management.lean ====
section
/-! SUPPORT. What a request whose authority is reached comes to, said once for reads, writes and commands. -/

namespace Sys2Proof.Machine

/-- A request whose claimed authority exists is handled in FOLLOWING at its effective authority (R8, R174,
R176). -/
theorem withAuthority_reached {l : Authority} {r : ReqArgs} {s : State} (h : ReachedAt l r s) (no : Octet)
    (f : Authority → State → State) :
    ∃ a : Authority, a.reaches l = true ∧ inFollowing (withAuthority no r f) s = f a s := by
  obtain ⟨h1, a, h2, h3⟩ := h
  refine ⟨effectiveAuthority s.lines.serviceKey a, h3, ?_⟩
  simp [inFollowing, h1, withAuthority, h2]

/-- Reaching an authority reaches those below it (R176). -/
theorem reaches_mono {a l m : Authority} (h : a.reaches l = true) (k : m.rank ≤ l.rank) : a.reaches m = true := by
  unfold Authority.reaches at h ⊢
  rw [decide_eq_true_eq] at h ⊢
  omega

/-- A write to a field that exists is checked at its effective authority (R178 step 1). -/
theorem writeRequest_reached {l : Authority} {table : Octet} {r : ReqArgs} {s : State} {x : Field}
    (h : ReachedAt l r s) (mode : table ≠ 15)
    (field : (tableFields table.toNat r.index.toNat)[r.field.toNat]? = some x) :
    ∃ a : Authority, a.reaches l = true ∧
      inFollowing (writeRequest table r) s = writeChecked table x a r s := by
  obtain ⟨h1, a, h2, h3⟩ := h
  refine ⟨effectiveAuthority s.lines.serviceKey a, h3, ?_⟩
  simp only [inFollowing, h1, if_true, writeRequest, withAuthority, h2, field, if_neg mode]

/-- A write that passes the checks of R178 steps 1 to 6 is taken or refused by the structure of its table
alone (step 7). -/
theorem writeRequest_checked {l : Authority} {table : Octet} {r : ReqArgs} {s : State} {x : Field} {z : Int}
    {clamped : Bool} (h : ReachedAt l r s) (mode : table ≠ 15)
    (field : (tableFields table.toNat r.index.toNat)[r.field.toNat]? = some x)
    (level : x.level.rank ≤ l.rank) (state : x.when.allows s = true) (writable : x.form ≠ .readOnly)
    (index : indexTaken table.toNat r.index.toNat = true) (value : x.form.take r.value = some (z, clamped)) :
    inFollowing (writeRequest table r) s =
      match applyWrite table.toNat r.index.toNat r.field.toNat z s with
      | none => refuse table r .refusedConflict s
      | some u => prepare (replyTo table r (if clamped then .adjusted else .ok) (wordOf z)) u := by
  obtain ⟨a, ha, e⟩ := writeRequest_reached h mode field
  rw [e]
  have hx := reaches_mono ha level
  unfold writeChecked
  dsimp only
  rw [if_neg (by simp [state]), if_neg (by simp [writable, hx]), if_neg (by simp [index]), value]
  all_goals rfl

/-- A write in a state that its field does not allow is refused REFUSED_STATE (R178 step 2). -/
theorem writeRequest_state {l : Authority} {table : Octet} {r : ReqArgs} {s : State} {x : Field}
    (h : ReachedAt l r s) (mode : table ≠ 15)
    (field : (tableFields table.toNat r.index.toNat)[r.field.toNat]? = some x)
    (state : x.when.allows s = false) :
    inFollowing (writeRequest table r) s = refuse table r .refusedState s := by
  obtain ⟨a, ha, e⟩ := writeRequest_reached h mode field
  rw [e]
  unfold writeChecked
  dsimp only
  rw [if_pos (by simp [state])]

/-- A command whose authority is reached passes or fails its own checks in the order of R184. -/
theorem commandRequest_reached {l : Authority} {no : Octet} {r : ReqArgs} {s : State} (c : Command)
    (h : ReachedAt l r s) (level : c.level.rank ≤ l.rank) :
    inFollowing (commandRequest no c r) s =
      if !c.indexOk then refuse no r .refusedIndex s
      else if !c.valueOk then refuse no r .refusedValue s
      else match c.refusal s with
        | some n => prepare (replyTo no r .refusedState (wordOfNat n)) s
        | none => prepare (replyTo no r (if c.clamped then .adjusted else .ok) c.used) (c.effect s) := by
  obtain ⟨h1, a, h2, h3⟩ := h
  have hl := reaches_mono h3 level
  simp only [inFollowing, h1, if_true, commandRequest, withAuthority, h2, hl, Bool.not_true, Bool.false_eq_true,
    if_false]
  all_goals rfl

/-- Checks made in order all pass. -/
theorem firstFailing_eq_none (l : List Bool) (h : ∀ b ∈ l, b = true) : firstFailing l = none := by
  induction l with
  | nil => rfl
  | cons b l ih =>
    obtain rfl : b = true := h b (by simp)
    simp only [firstFailing, ih fun c hc => h c (by simp [hc]), Option.map_none]

/-- The first check that fails, numbered from 1. -/
theorem firstFailing_eq_some (l : List Bool) (n : Nat) (h : n < l.length) (fails : l[n] = false)
    (before : ∀ (m : Nat) (hm : m < n), l[m] = true) : firstFailing l = some (n + 1) := by
  induction l generalizing n with
  | nil => simp at h
  | cons b l ih =>
    cases n with
    | zero =>
      simp only [List.getElem_cons_zero] at fails
      subst fails
      rfl
    | succ n =>
      have hb : b = true := before 0 (by omega)
      subst hb
      have := ih n (by simpa using h) (by simpa using fails)
        fun m hm => by simpa using before (m + 1) (by omega)
      simp only [firstFailing, this, Option.map_some]

/-- The checks of an enabled window (R23). -/
theorem windowConsistent_iff (s : State) (w : Window) : windowConsistent s w = true ↔
    w.base % w.size = 0 ∧ (w.width = .narrow → 2 ≤ w.size) ∧
      w.firstChannel.val + w.size / (if w.width = .wide then 1 else 2) ≤ 128 ∧
      ∀ k : Fin 16, s.plan[k].enable = true →
        ¬ (w.base ≤ s.plan[k].slot ∧ s.plan[k].slot < w.base + w.size) := by
  obtain ⟨enable, base, size, width, first, interval⟩ := w
  cases width
  · simp [windowConsistent, channelsReached, slotsPerChannel, someIdx, Window.spans, and_assoc]
  · simp [windowConsistent, channelsReached, slotsPerChannel, someIdx, Window.spans, and_assoc]
    exact fun _ _ _ => decide_eq_true_iff

/-- The checks of an enabled command-plan entry (R182). -/
theorem planConsistent_iff (s : State) (k : Fin 16) (p : PlanEntry) : planConsistent s k p = true ↔
    (∀ j : Fin 16, j ≠ k → s.plan[j].enable = true →
      s.plan[j].slot ≠ p.slot ∧ s.plan[j].object ≠ p.object) ∧
    ∀ i : Fin 32, s.windows[i].enable = true →
      ¬ (s.windows[i].base ≤ p.slot ∧ p.slot < s.windows[i].base + s.windows[i].size) := by
  have one : ∀ j : Fin 16, ((decide (j = k) || !s.plan[j].enable ||
      (decide (s.plan[j].slot ≠ p.slot) && decide (s.plan[j].object ≠ p.object))) = true ↔
      (j ≠ k → s.plan[j].enable = true → s.plan[j].slot ≠ p.slot ∧ s.plan[j].object ≠ p.object)) := by
    intro j
    by_cases hj : j = k
    · simp [hj]
    · cases he : s.plan[j].enable <;> simp [hj]
  unfold planConsistent
  rw [Bool.and_eq_true, List.all_eq_true]
  refine and_congr ⟨fun h j => (one j).1 (h j (List.mem_finRange j)), fun h j _ => (one j).2 (h j)⟩ ?_
  simp [someIdx, Window.spans]

/-- Ascending lists of numbers (R42). -/
theorem ascending_iff (l : List Int) : ascending l = true ↔ l.Pairwise (· < ·) := by
  induction l with
  | nil => simp [ascending]
  | cons a l ih =>
    cases l with
    | nil => simp [ascending]
    | cons b l =>
      simp only [ascending, Bool.and_eq_true, decide_eq_true_eq, ih]
      constructor
      · rintro ⟨h, g⟩
        refine List.Pairwise.cons (fun c hc => ?_) g
        rcases List.mem_cons.1 hc with rfl | hc
        · exact h
        · exact h.trans ((List.pairwise_cons.1 g).1 c hc)
      · intro h
        exact ⟨(List.pairwise_cons.1 h).1 b (by simp), (List.pairwise_cons.1 h).2⟩

/-- A coded figure reads back as itself (R179). -/
theorem wordOf_toNat (w : Word) : wordOf (w.toNat : Int) = w := by
  simp [wordOf]

theorem wordOf_toInt (w : Word) : wordOf w.toInt = w := by
  simp [wordOf]

/-- A figure within its range is not clamped. -/
theorem clampInt_of_mem {lo hi z : Int} (h1 : lo ≤ z) (h2 : z ≤ hi) : clampInt lo hi z = z := by
  unfold clampInt
  omega

/-- An index in range names its entry. -/
theorem fin_ofNat_of_eq {n : Nat} [NeZero n] (i : Fin n) (m : Nat) (h : m = i.val) : Fin.ofNat n m = i := by
  subst h
  apply Fin.ext
  simp [Fin.ofNat, Nat.mod_eq_of_lt i.isLt]

/-- A flag is taken as written (R178 step 5). -/
theorem take_flag (w : Word) (h : w.toNat < 2) : Form.take (.enumerated 2) w = some ((w.toNat : Int), false) := by
  simp [Form.take, h]

/-- The flag that a written 0 or 1 stands for. -/
theorem flagOf_eq (w : Word) (h : w.toNat < 2) : flagOf (w.toNat : Int) = decide (w = 1) := by
  have e : w = 1 ↔ w.toNat = 1 := by
    constructor
    · rintro rfl
      rfl
    · intro k
      apply BitVec.eq_of_toNat_eq
      rw [k]
      rfl
  simp only [flagOf, e]
  by_cases k : w.toNat = 1
  · simp [k]
  · have z : w.toNat = 0 := by omega
    simp [z]

end Sys2Proof.Machine
end

