-- ==== Sys2Proof/Laws/Safe.lean ====
section
/-! SUPPORT. Every operation of the blocks keeps a safe state safe. -/

namespace Sys2Proof.Machine

namespace Safe

/-- A safe state stays safe where none of what safety reads changes, but for sections that leave ONLINE and a
report queue within its bound. -/
theorem same {s t : State} (h : Safe s) (lines : t.lines = s.lines := by rfl)
    (nacelle : t.sup.nacelle = s.sup.nacelle := by rfl) (mode : t.yaw.mode = s.yaw.mode := by rfl)
    (window : t.yaw.window = s.yaw.window := by rfl)
    (sects : ∀ i : Fin 6, t.sects[i].state = .online → s.sects[i].state = .online := by exact fun _ h => h)
    (broken : t.ring.broken = s.ring.broken := by rfl)
    (queue : s.reports.queue.length ≤ 32 → t.reports.queue.length ≤ 32 := by exact fun h => h) : Safe t where
  stopLine := by rw [lines, nacelle]; exact h.stopLine
  brakeLine := by rw [lines, mode]; exact h.brakeLine
  onlineOperating := fun i hi => by rw [nacelle]; exact h.onlineOperating i (sects i hi)
  operatingClear := by rw [nacelle, broken, lines]; exact h.operatingClear
  queueBound := queue h.queueBound
  windowBound := by rw [window]; exact h.windowBound

theorem choiceMade {s : State} (h : Safe s) : Safe s.choiceMade := by
  unfold State.choiceMade
  split <;> exact h.same

theorem inOpenOrder {α : Type} {l : List α} {f : α → State → State} {s : State} (h : Safe s)
    (k : ∀ a ∈ l, ∀ t, Safe t → Safe (f a t)) : Safe (Machine.inOpenOrder l f s) :=
  inOpenOrder_keeps (P := Safe) l s (fun _ ht => ht.choiceMade) k h

theorem raise {s : State} (h : Safe s) (c : Fin 128) (a : RecAction) (sub : Subject) (v : Option Half) :
    Safe (Machine.raise c a sub v s) :=
  h.same (by simp) (by simp) (by simp) (by simp) (by simp) (by simp) (raise_queue_le c a sub v s)

theorem fileRecord {s : State} (h : Safe s) (r : FaultRecord) : Safe (Machine.fileRecord r s) := by
  unfold Machine.fileRecord
  split
  · rename_i k
    refine h.same (queue := fun _ => ?_)
    rw [List.length_append, List.length_singleton]
    exact k
  · exact h.same

/-- A section may take any record that is not newly ONLINE. -/
theorem setSect {s : State} (h : Safe s) (i : Fin 6) (x : Sect)
    (k : x.state = .online → s.sects[i].state = .online) : Safe (s.setSect i x) := by
  refine h.same (sects := fun j hj => ?_)
  simp only [State.setSect, Fin.getElem_fin, Vector.getElem_set] at hj
  split at hj
  · rename_i e
    obtain rfl : i = j := Fin.ext e
    exact k hj
  · exact hj

/-- The yaw may take any runtime whose window is within its bound, since the brake follows it. -/
theorem putYaw {s : State} (h : Safe s) (y : Yaw) (k : y.window.length ≤ 64) : Safe (Machine.putYaw y s) where
  stopLine := h.stopLine
  brakeLine := rfl
  onlineOperating := h.onlineOperating
  operatingClear := h.operatingClear
  queueBound := h.queueBound
  windowBound := k

theorem yawToHeld {s : State} (h : Safe s) : Safe (Machine.yawToHeld s) := by
  unfold Machine.yawToHeld
  split
  · exact h
  · exact h.putYaw _ h.windowBound

theorem holdOnline {s : State} (h : Safe s) : Safe (Machine.holdOnline s) := by
  refine h.same (sects := fun i hi => ?_)
  simp only [Machine.holdOnline, Fin.getElem_fin, Vector.getElem_map] at hi
  split at hi
  · cases hi
  · exact hi

theorem isolateSect {s : State} (h : Safe s) (i : Fin 6) : Safe (Machine.isolateSect i s) := by
  unfold Machine.isolateSect
  dsimp only
  split
  · exact h.setSect i _ (fun e => by cases e)
  · exact h

/-- The nacelle stops with no section ONLINE. -/
theorem enterStopped (r : StopReason) {s : State} (brakeLine : s.lines.brakeHold = brakeApplied s.yaw.mode)
    (queueBound : s.reports.queue.length ≤ 32) (windowBound : s.yaw.window.length ≤ 64) :
    Safe (Machine.enterStopped r s) := by
  have k : Safe (Machine.holdOnline (putNacelle .stopped r s)) :=
    { stopLine := rfl
      brakeLine := brakeLine
      onlineOperating := by
        intro i hi
        simp only [Machine.holdOnline, Fin.getElem_fin, Vector.getElem_map] at hi
        split at hi
        · cases hi
        · rename_i e; exact absurd hi e
      operatingClear := fun e => by cases e
      queueBound := queueBound
      windowBound := windowBound }
  unfold Machine.enterStopped
  dsimp only
  split
  · exact k.yawToHeld
  · exact k

/-- A stop demand makes safe again a state in which only the ring break or the stop line has just begun. -/
theorem stopDemand_of (r : StopReason) {s : State} (stopLine : s.lines.stopOut = decide (s.sup.nacelle ≠ .operating))
    (brakeLine : s.lines.brakeHold = brakeApplied s.yaw.mode)
    (online : ∀ i : Fin 6, s.sects[i].state = .online → s.sup.nacelle = .operating)
    (queueBound : s.reports.queue.length ≤ 32) (windowBound : s.yaw.window.length ≤ 64) :
    Safe (Machine.stopDemand r s) := by
  unfold Machine.stopDemand
  split
  · exact enterStopped r brakeLine queueBound windowBound
  · rename_i n
    exact ⟨stopLine, brakeLine, online, fun e => absurd e n, queueBound, windowBound⟩

theorem stopDemand {s : State} (h : Safe s) (r : StopReason) : Safe (Machine.stopDemand r s) :=
  stopDemand_of r h.stopLine h.brakeLine h.onlineOperating h.queueBound h.windowBound

theorem clearYawAuto {s : State} (h : Safe s) : Safe (Machine.clearYawAuto s) := h.same

/-! ### The limit unit -/

theorem setLimit {s : State} (h : Safe s) (i : Fin 96) (l : Limit) : Safe (s.setLimit i l) := h.same

theorem beginAction {s : State} (h : Safe s) (l : Limit) : Safe (Machine.beginAction l s) := by
  unfold Machine.beginAction
  split
  · exact h.isolateSect _
  · exact foldl_keeps (P := Safe) _ (fun a _ t ht => ht.isolateSect a) s h
  · exact h.yawToHeld
  · exact h.stopDemand _
  all_goals exact h

theorem levelEntered {s : State} (h : Safe s) (i : Fin 96) : Safe (Machine.levelEntered i s) := by
  unfold Machine.levelEntered
  dsimp only
  split
  · split
    · exact h.raise _ _ _ _
    · exact h
  · exact (h.raise _ _ _ _).beginAction _
  · exact h.raise _ _ _ _
  · exact h

theorem evaluateLimit {s : State} (h : Safe s) (i : Fin 96) (v : Int) : Safe (Machine.evaluateLimit i v s) := by
  unfold Machine.evaluateLimit
  dsimp only
  split
  · exact h
  · split
    · exact h.setLimit _ _
    · split
      · exact (h.setLimit _ _).levelEntered _
      · exact h.setLimit _ _

theorem limitLoss {s : State} (h : Safe s) (i : Fin 96) (e : Bool) : Safe (Machine.limitLoss i e s) := by
  unfold Machine.limitLoss
  dsimp only
  split
  · exact h
  · split
    · exact (h.setLimit _ _).levelEntered _
    · exact h.setLimit _ _

theorem limitBound {s : State} (h : Safe s) (i : Fin 96) : Safe (Machine.limitBound i s) := by
  unfold Machine.limitBound
  dsimp only
  split
  · exact h.setLimit _ _
  · exact h

theorem armLimit {s : State} (h : Safe s) (i : Fin 96) (l : Limit) : Safe (Machine.armLimit i l s) :=
  (h.setLimit _ _).levelEntered _

theorem clearLimit {s : State} (h : Safe s) (c : Fin 128) (i : Fin 96) : Safe (Machine.clearLimit c i s) := by
  unfold Machine.clearLimit
  dsimp only
  split
  · split
    · split
      · exact (h.setLimit _ _).levelEntered _
      · exact h
    · exact h
  · exact h

theorem limitsAtClear {s : State} (h : Safe s) (c : Fin 128) : Safe (Machine.limitsAtClear c s) :=
  h.inOpenOrder fun i _ _ ht => ht.clearLimit c i

theorem limitWritten {s : State} (h : Safe s) (i : Fin 96) (old l : Limit) (a b : Bool) :
    Safe (Machine.limitWritten i old l a b s) := by
  unfold Machine.limitWritten
  split
  · exact h.setLimit _ _
  · split
    · exact h.armLimit _ _
    · split <;> exact h.setLimit _ _

/-! ### The section manager -/

theorem heatsinkUpdate {s : State} (h : Safe s) (i : Fin 6) (v : Int) : Safe (Machine.heatsinkUpdate i v s) := by
  unfold Machine.heatsinkUpdate
  dsimp only
  split
  · exact h
  · split <;> exact h.setSect _ _ (fun e => e)

theorem heatsinkLoss {s : State} (h : Safe s) (i : Fin 6) : Safe (Machine.heatsinkLoss i s) := by
  unfold Machine.heatsinkLoss
  dsimp only
  split
  · exact h
  · refine Safe.raise (h.setSect i _ fun e => ?_) _ _ _ _
    exact e

theorem thermalNow {s : State} (h : Safe s) (i : Fin 6) : Safe (Machine.thermalNow i s) := by
  unfold Machine.thermalNow
  split
  · exact h.heatsinkUpdate _ _
  · exact h.heatsinkLoss _

theorem statusUpdate {s : State} (h : Safe s) (i : Fin 6) (v : Int) : Safe (Machine.statusUpdate i v s) := by
  unfold Machine.statusUpdate
  dsimp only
  split
  · exact h
  · split
    · refine Safe.raise (h.setSect i _ fun e => ?_) _ _ _ _
      dsimp only at e
      split at e
      · cases e
      · exact e
    · split
      · exact Safe.raise (h.setSect i _ fun e => by cases e) _ _ _ _
      · exact h.setSect i _ fun e => e
      all_goals exact h
    all_goals
      split
      · exact h.setSect i _ fun e => e
      all_goals exact h

theorem statusLoss {s : State} (h : Safe s) (i : Fin 6) : Safe (Machine.statusLoss i s) := by
  unfold Machine.statusLoss
  dsimp only
  split
  · exact Safe.raise (h.setSect i _ fun e => by cases e) _ _ _ _
  · exact h

theorem sectionsClose {s : State} (h : Safe s) : Safe (Machine.sectionsClose s) := by
  refine h.same (sects := fun i hi => ?_)
  simp only [Machine.sectionsClose, Fin.getElem_fin, Vector.getElem_ofFn, sectClose, closeState] at hi
  split at hi
  · dsimp only at hi
    split at hi
    · split at hi
      · cases hi
      · exact hi
    · split at hi
      · cases hi
      · exact hi
    · split at hi <;> cases hi
    · cases hi
  · exact hi

theorem writePresent {s : State} (h : Safe s) (i : Fin 6) (on : Bool) : Safe (Machine.writePresent i on s) := by
  unfold Machine.writePresent
  dsimp only
  split
  · exact h
  · split
    · exact (h.setSect i _ fun e => by cases e).thermalNow i
    · exact h.setSect i _ fun e => by cases e

theorem writeHeatsink {s : State} (h : Safe s) (i : Fin 6) (ch : Fin 128) :
    Safe (Machine.writeHeatsink i ch s) := by
  unfold Machine.writeHeatsink
  dsimp only
  split
  · refine Safe.thermalNow (h.setSect i _ fun e => ?_) i
    exact e
  · exact h.setSect i _ fun e => e

theorem writeSectionBlind {s : State} (h : Safe s) (f : Nat) : Safe (Machine.writeSectionBlind f s) := by
  refine h.same (sects := fun i hi => ?_)
  simp only [Machine.writeSectionBlind, Fin.getElem_fin, Vector.getElem_map] at hi
  split at hi <;> exact hi

theorem writeSect {s : State} (h : Safe s) (i : Fin 6) (f : Nat) (z : Int) : Safe (Machine.writeSect i f z s) := by
  unfold Machine.writeSect
  dsimp only
  split
  · exact h.writePresent _ _
  · exact h.setSect i _ fun e => e
  · exact h.setSect i _ fun e => e
  · exact h.writeHeatsink _ _
  · exact h.setSect i _ fun e => e
  · exact h.setSect i _ fun e => e

theorem writeConverter {s : State} (h : Safe s) (f : Nat) (z : Int) : Safe (Machine.writeConverter f z s) := by
  unfold Machine.writeConverter
  split
  · exact h.same
  · exact h.same
  · exact h.same
  · exact h.writeSectionBlind _

/-! ### The dispatch unit -/

theorem setpointLost {s : State} (h : Safe s) : Safe (Machine.setpointLost s) := by
  unfold Machine.setpointLost
  split
  · exact Safe.same (Safe.raise (s := { s with power := { s.power with loss := true } }) h.same _ _ _ _)
  · exact h

theorem powerClose {s : State} (h : Safe s) : Safe (Machine.powerClose s) := by
  have k : Safe (requestAtClose s) := by
    have q : Safe (quietAtClose s) := h.same
    unfold requestAtClose
    dsimp only
    split
    · exact q.same
    · exact q.setpointLost
  exact k.same

/-! ### The yaw unit -/

/-- The yaw may take a runtime of the same state and window. -/
theorem yawSet {s : State} (h : Safe s) (y : Yaw) (mode : y.mode = s.yaw.mode := by rfl)
    (window : y.window = s.yaw.window := by rfl) : Safe { s with yaw := y } :=
  h.same (mode := mode) (window := window)

theorem toStopping {s : State} (h : Safe s) (m : Bool) : Safe (Machine.toStopping m s) :=
  h.putYaw _ h.windowBound

theorem enterParked {s : State} (h : Safe s) : Safe (Machine.enterParked s) := h.putYaw _ h.windowBound

theorem yawAtCrossing {s : State} (h : Safe s) : Safe (Machine.yawAtCrossing s) := by
  unfold Machine.yawAtCrossing
  split
  · exact h.toStopping _
  · split
    · exact h.toStopping _
    · exact h.yawToHeld
  · split
    · exact h.toStopping _
    · exact h.yawToHeld
  · exact h.yawToHeld
  · exact h.yawToHeld
  · exact h.yawToHeld
  · exact h.yawSet _
  · exact h.yawSet _
  · exact h

theorem hardCrossing {s : State} (h : Safe s) : Safe (Machine.hardCrossing s) :=
  ((h.raise _ _ _ _).clearYawAuto.stopDemand _).yawAtCrossing

theorem hardCheck {s : State} (h : Safe s) (b : Bool) : Safe (Machine.hardCheck b s) := by
  unfold Machine.hardCheck
  split
  · exact h.hardCrossing
  · exact h

theorem hardStop {s : State} (h : Safe s) : Safe (Machine.hardStop s) := by
  unfold Machine.hardStop
  split
  · exact h.toStopping _
  · exact h

theorem unwindCheck {s : State} (h : Safe s) : Safe (Machine.unwindCheck s) := by
  unfold Machine.unwindCheck
  split
  · exact h.toStopping _
  · exact h

theorem advanceTwist {s : State} (h : Safe s) (d : Int) : Safe (Machine.advanceTwist d s) := by
  unfold Machine.advanceTwist
  dsimp only
  split
  · exact h
  · exact ((h.yawSet _).hardCheck _).hardStop.unwindCheck

theorem headingUpdate {s : State} (h : Safe s) (v : Int) : Safe (Machine.headingUpdate v s) := by
  unfold Machine.headingUpdate
  dsimp only
  split
  · exact h.yawSet _
  · split
    · exact (h.yawSet _).raise _ _ _ _
    · exact (h.yawSet _).advanceTwist _

theorem headingLoss {s : State} (h : Safe s) : Safe (Machine.headingLoss s) := by
  unfold Machine.headingLoss
  dsimp only
  split
  · exact (h.yawSet _).yawToHeld.raise _ _ _ _
  · exact h.yawSet _

theorem vaneUpdate {s : State} (h : Safe s) (v : Int) : Safe (Machine.vaneUpdate v s) := by
  unfold Machine.vaneUpdate
  dsimp only
  split
  · split
    · exact h.toStopping _
    · exact h
  · split
    · exact h.toStopping _
    · exact h

theorem vaneLoss {s : State} (h : Safe s) : Safe (Machine.vaneLoss s) := by
  unfold Machine.vaneLoss
  split
  · exact h.toStopping _
  · exact h

theorem enterRelease {s : State} (h : Safe s) (m : YawMode) (d : Turn) : Safe (Machine.enterRelease m d s) :=
  h.putYaw _ h.windowBound

theorem enterUnwindWait {s : State} (h : Safe s) : Safe (Machine.enterUnwindWait s) := h.putYaw _ h.windowBound

theorem beginSlew {s : State} (h : Safe s) (m : YawMode) : Safe (Machine.beginSlew m s) :=
  Safe.unwindCheck (h.putYaw { s.yaw with
    mode := m, phase := .slew, staggerCount := 0, slewCount := 0, stallCount := 0
    stallRef := s.yaw.twist, groupB := decide (s.yawCfg.stagger = 0) } h.windowBound)

theorem releaseEnd {s : State} (h : Safe s) : Safe (Machine.releaseEnd s) := by
  unfold Machine.releaseEnd enterSlew
  split
  · split
    · exact h.toStopping _
    · split
      · split
        · exact h.beginSlew _
        · exact h.toStopping _
      · exact h.beginSlew _
  · exact h

theorem brakeStuck {s : State} (h : Safe s) : Safe (Machine.brakeStuck s) := by
  unfold Machine.brakeStuck
  split
  · exact (h.raise _ _ _ _).yawToHeld
  · exact h

theorem groupBStart {s : State} (h : Safe s) : Safe (Machine.groupBStart s) := by
  unfold Machine.groupBStart
  split
  · exact h.yawSet _
  · exact h

theorem yawStall {s : State} (h : Safe s) : Safe (Machine.yawStall s) := by
  unfold Machine.yawStall
  split
  · split
    · exact (h.raise _ _ _ _).toStopping _
    · exact h.yawSet _
  · exact h

theorem yawOvertime {s : State} (h : Safe s) : Safe (Machine.yawOvertime s) := by
  unfold Machine.yawOvertime
  split
  · exact (h.raise _ _ _ _).toStopping _
  · exact h

theorem jogEnd {s : State} (h : Safe s) : Safe (Machine.jogEnd s) := by
  unfold Machine.jogEnd
  split
  · exact h.toStopping _
  · exact h

theorem coastEnd {s : State} (h : Safe s) : Safe (Machine.coastEnd s) := by
  unfold Machine.coastEnd
  split
  · exact h.putYaw _ h.windowBound
  · exact h

/-- An emptied window is within its bound. -/
theorem windowEmptied {s : State} (h : Safe s) : Safe { s with yaw := s.yaw.windowEmptied } where
  stopLine := h.stopLine
  brakeLine := h.brakeLine
  onlineOperating := h.onlineOperating
  operatingClear := h.operatingClear
  queueBound := h.queueBound
  windowBound := by simp [Yaw.windowEmptied]

theorem brakeEnd {s : State} (h : Safe s) : Safe (Machine.brakeEnd s) := by
  unfold Machine.brakeEnd
  split
  · split
    · exact h.yawToHeld
    · exact h.windowEmptied.enterParked
  · exact h

theorem idleConfirm {s : State} (h : Safe s) : Safe (Machine.idleConfirm s) := by
  unfold Machine.idleConfirm enterUnwinding
  split
  · exact h.enterRelease _ _
  · exact h

theorem unwindBlocked {s : State} (h : Safe s) : Safe (Machine.unwindBlocked s) := by
  unfold Machine.unwindBlocked
  split
  · exact (h.raise _ _ _ _).enterParked
  · exact h

theorem judgeWindow {s : State} (h : Safe s) : Safe (Machine.judgeWindow s) where
  stopLine := by rw [judgeWindow_frame]; exact h.stopLine
  brakeLine := by
    have e : (Machine.judgeWindow s).yaw.mode = s.yaw.mode := by rw [judgeWindow_yaw]
    rw [e, judgeWindow_frame]; exact h.brakeLine
  onlineOperating := by rw [judgeWindow_frame]; exact h.onlineOperating
  operatingClear := by rw [judgeWindow_frame]; exact h.operatingClear
  queueBound := by
    unfold Machine.judgeWindow
    dsimp only
    split
    · exact raise_queue_le _ _ _ _ _ h.queueBound
    · exact h.queueBound
  windowBound := by rw [judgeWindow_yaw]; exact joinWindow_length_le _ _ h.windowBound

theorem automaticStart {s : State} (h : Safe s) : Safe (Machine.automaticStart s) := by
  have k : Safe { s with yaw := { s.yaw with startCount := 0 } } := h.yawSet _
  unfold Machine.automaticStart
  split
  · dsimp only
    generalize (if s.yaw.startPositive = true then Turn.cw else Turn.ccw) = d
    split
    · split
      · exact k
      · exact k.enterUnwindWait
    · exact k.enterRelease _ _
  · exact h

theorem decimationTick {s : State} (h : Safe s) : Safe (Machine.decimationTick s) := by
  unfold Machine.decimationTick
  split
  · refine Safe.automaticStart ?_
    have k : Safe (Machine.judgeWindow { s with yaw := { s.yaw with tickCount := 0 } }) :=
      (h.yawSet _).judgeWindow
    unfold startCounting
    split
    · split <;> exact k.yawSet _
    · exact k
  · exact h

theorem yawClose {s : State} (h : Safe s) : Safe (Machine.yawClose s) := by
  have k : Safe (yawTimers s) := by
    unfold yawTimers
    dsimp only
    split
    · exact (h.yawSet _).releaseEnd.brakeStuck
    · split
      · exact (h.yawSet _).groupBStart.yawStall.yawOvertime.jogEnd
      · split
        · exact (h.yawSet _).coastEnd
        · exact (h.yawSet _).brakeEnd
        · exact (h.yawSet _).idleConfirm.unwindBlocked
        · exact h
  exact (k.yawSet _).decimationTick

/-! ### The cooling unit -/

theorem coolSet {s : State} (h : Safe s) (c : Cool) : Safe { s with cool := c } := h.same

theorem pumpsSet {s : State} (h : Safe s) (c : Vector Pump 3) : Safe { s with pumps := c } := h.same

theorem formFactor {s : State} (h : Safe s) : Safe (Machine.formFactor s) := h.same

theorem coolantUpdate {s : State} (h : Safe s) (v : Int) : Safe (Machine.coolantUpdate v s) := h.same

theorem coolantLoss {s : State} (h : Safe s) : Safe (Machine.coolantLoss s) :=
  Safe.raise (h.coolSet _).formFactor _ _ _ _

theorem coolantNow {s : State} (h : Safe s) : Safe (Machine.coolantNow s) := by
  unfold Machine.coolantNow
  split
  · exact h.coolantUpdate _
  · exact h.coolantLoss

theorem guardTest {s : State} (h : Safe s) : Safe (Machine.guardTest s) := by
  unfold Machine.guardTest
  split
  · exact h.coolSet _
  · exact h

theorem heaterJudge {s : State} (h : Safe s) : Safe (Machine.heaterJudge s) := h.same

theorem dryLossTest {s : State} (h : Safe s) : Safe (Machine.dryLossTest s) := by
  have k : ∀ b : Bool, Safe (if b then
      if s.cool.beenDry then
        Machine.raise CauseNo.dryLost .none .none (s.cool.margin.map signedFigure)
          { s with cool := { s.cool with dry := false } }
      else { s with cool := { s.cool with dry := false } }
    else s) := by
    intro b
    split
    · split
      · exact (h.coolSet _).raise _ _ _ _
      · exact h.coolSet _
    · exact h
  exact k _

theorem formMargin {s : State} (h : Safe s) : Safe (Machine.formMargin s) :=
  (h.coolSet _).guardTest.heaterJudge.dryLossTest

theorem coolingUpdate {s : State} (h : Safe s) (ch : Fin 128) (v : Int) :
    Safe (Machine.coolingUpdate ch v s) := by
  have k : Safe (if ch = s.coolCfg.tin then Machine.coolantUpdate v s else s) := by
    split
    · exact h.coolantUpdate v
    · exact h
  unfold Machine.coolingUpdate
  dsimp only
  split
  · exact k.formMargin
  · exact k

theorem coolingLoss {s : State} (h : Safe s) (ch : Fin 128) : Safe (Machine.coolingLoss ch s) := by
  have k : Safe (if ch = s.coolCfg.tin then Machine.coolantLoss s else s) := by
    split
    · exact h.coolantLoss
    · exact h
  unfold Machine.coolingLoss
  dsimp only
  split
  · exact k.formMargin
  · exact k

theorem reorderPumps {s : State} (h : Safe s) : Safe (Machine.reorderPumps s) := h.same

theorem shortTest {s : State} (h : Safe s) : Safe (Machine.shortTest s) := by
  unfold Machine.shortTest
  split
  · exact h.raise _ _ _ _
  · exact h

theorem setPump {s : State} (h : Safe s) (k : Fin 3) (p : Pump) : Safe (s.setPump k p) := h.same

theorem raisePumpFail {s : State} (h : Safe s) (k : Fin 3) (how : PumpFailure) :
    Safe (Machine.raisePumpFail k how s) := by
  unfold Machine.raisePumpFail addPumpRecord
  split
  · split
    · exact h.fileRecord _
    · exact h
  · exact h.raise _ _ _ _

theorem failPump {s : State} (h : Safe s) (k : Fin 3) (how : PumpFailure) : Safe (Machine.failPump k how s) :=
  ((h.raisePumpFail k how).setPump _ _).reorderPumps

theorem pumpStartFail {s : State} (h : Safe s) (k : Fin 3) : Safe (Machine.pumpStartFail k s) := by
  unfold Machine.pumpStartFail
  split
  · exact h.failPump _ _
  · exact h

theorem pumpFlowFail {s : State} (h : Safe s) (k : Fin 3) : Safe (Machine.pumpFlowFail k s) := by
  unfold Machine.pumpFlowFail
  split
  · exact h.failPump _ _
  · exact h

theorem judgeStarting {s : State} (h : Safe s) (k : Fin 3) : Safe (Machine.judgeStarting k s) := by
  unfold Machine.judgeStarting
  dsimp only
  split
  · exact h
  · split
    · exact h.setPump _ _
    · exact (h.setPump _ _).pumpStartFail _

theorem judgeRunning {s : State} (h : Safe s) (k : Fin 3) : Safe (Machine.judgeRunning k s) := by
  unfold Machine.judgeRunning
  dsimp only
  split
  · exact h
  · split
    · exact h.setPump _ _
    · exact (h.setPump _ _).pumpFlowFail _

theorem runMinute {s : State} (h : Safe s) (k : Fin 3) : Safe (Machine.runMinute k s) := by
  unfold Machine.runMinute
  dsimp only
  split
  · exact h.setPump _ _
  · exact h

theorem minuteTick {s : State} (h : Safe s) (k : Fin 3) : Safe (Machine.minuteTick k s) := by
  unfold Machine.minuteTick
  dsimp only
  split
  · exact (h.setPump _ _).runMinute _
  · exact h

theorem pumpsAtClose {s : State} (h : Safe s) : Safe (Machine.pumpsAtClose s) := by
  have r : Safe (requiredAtClose s) := by
    unfold requiredAtClose
    dsimp only
    split
    · exact h
    · exact (h.coolSet _).reorderPumps
  unfold Machine.pumpsAtClose
  dsimp only
  refine Safe.formFactor (foldl_keeps (P := Safe) _ (fun k _ t ht => ht.minuteTick k) _ (Safe.shortTest ?_))
  exact (r.inOpenOrder fun k _ _ ht => ht.judgeStarting k).inOpenOrder fun k _ _ ht => ht.judgeRunning k

theorem thermalStageStep {s : State} (h : Safe s) : Safe (Machine.thermalStageStep s) := by
  unfold Machine.thermalStageStep
  dsimp only
  split
  · exact h.coolSet _
  · split
    · exact h.coolSet _
    · exact h

theorem fanStep {s : State} (h : Safe s) : Safe (Machine.fanStep s) := by
  unfold Machine.fanStep
  dsimp only
  split <;> exact h.coolSet _

theorem dryConfirm {s : State} (h : Safe s) : Safe (Machine.dryConfirm s) := by
  unfold Machine.dryConfirm
  split
  · exact h.coolSet _
  · exact h

theorem coolingClose {s : State} (h : Safe s) : Safe (Machine.coolingClose s) := by
  have fans : Safe (Machine.guardTest (Machine.fanStep (stepCountTick (Machine.thermalStageStep
      (thermalCounts (Machine.pumpsAtClose s)))))) :=
    Safe.guardTest (Safe.fanStep (Safe.coolSet (Safe.thermalStageStep (Safe.coolSet h.pumpsAtClose _)) _))
  exact Safe.dryConfirm (fans.coolSet _)

theorem pumpsAfterWrite {s : State} (h : Safe s) : Safe (Machine.pumpsAfterWrite s) :=
  h.reorderPumps.shortTest.formFactor

theorem writePump {s : State} (h : Safe s) (k : Fin 3) (f : Nat) (z : Int) : Safe (Machine.writePump k f z s) := by
  unfold Machine.writePump writePumpPresent clearFailedPump
  dsimp only
  split
  · split
    · exact h
    · exact (h.setPump _ _).pumpsAfterWrite
  · exact h.setPump _ _
  · exact h.setPump _ _
  · split
    · exact (h.setPump _ _).pumpsAfterWrite
    · exact h

theorem coolSettingsWritten {s : State} (h : Safe s) (f : Nat) : Safe (Machine.coolSettingsWritten f s) := by
  unfold Machine.coolSettingsWritten
  split
  · exact h.coolantNow.formMargin
  · exact h.formMargin
  · exact h.formMargin
  · split
    · exact (h.coolSet _).formFactor
    · exact h
  all_goals first
    | exact h.formFactor
    | exact h.guardTest
    | exact h.heaterJudge
    | exact h.dryLossTest
    | exact h

/-! ### The channel unit -/

theorem setChannel {s : State} (h : Safe s) (ch : Fin 128) (c : Channel) : Safe (s.setChannel ch c) := h.same

theorem updateWork {s : State} (h : Safe s) (ch : Fin 128) (v : Int) (x : Reader) :
    Safe (Machine.updateWork ch v x s) := by
  cases x with
  | own c w => exact h.raise _ _ _ _
  | limit i => exact h.evaluateLimit i v
  | heatsink i => exact h.heatsinkUpdate i v
  | status i => exact h.statusUpdate i v
  | heading => exact h.headingUpdate v
  | vane => exact h.vaneUpdate v
  | cooling => exact h.coolingUpdate ch v

theorem lossWork {s : State} (h : Safe s) (ch : Fin 128) (e : Bool) (x : Reader) :
    Safe (Machine.lossWork ch e x s) := by
  cases x with
  | own c w => exact h.raise _ _ _ _
  | limit i => exact h.limitLoss i e
  | heatsink i => exact h.heatsinkLoss i
  | status i => exact h.statusLoss i
  | heading => exact h.headingLoss
  | vane => exact h.vaneLoss
  | cooling => exact h.coolingLoss ch

theorem giveUpdate {s : State} (h : Safe s) (ch : Fin 128) (v : Int) (own : List Reader) :
    Safe (Machine.giveUpdate ch v own s) :=
  h.inOpenOrder fun x _ _ ht => ht.updateWork ch v x

theorem giveLoss {s : State} (h : Safe s) (ch : Fin 128) (e : Bool) (own : List Reader) :
    Safe (Machine.giveLoss ch e own s) :=
  h.inOpenOrder fun x _ _ ht => ht.lossWork ch e x

theorem codeInvalid {s : State} (h : Safe s) (ch : Fin 128) (code : Half) (seen : Channel) :
    Safe (Machine.codeInvalid ch code seen s) := by
  unfold Machine.codeInvalid
  repeat' (first | split | dsimp only)
  all_goals first
    | exact h.setChannel _ _
    | exact (h.setChannel _ _).raise _ _ _ _
    | exact (h.setChannel _ _).giveLoss _ _ _

theorem codeValue {s : State} (h : Safe s) (ch : Fin 128) (v : Int) (own : List Reader) (seen : Channel) :
    Safe (Machine.codeValue ch v own seen s) :=
  (h.setChannel _ _).giveUpdate _ _ _

theorem processCode {s : State} (h : Safe s) (ch : Fin 128) (code : Half) (good : Bool) :
    Safe (Machine.processCode ch code good s) := by
  unfold Machine.processCode
  dsimp only
  split
  · exact h
  · split
    · exact h.setChannel _ _
    · split
      · exact h.codeInvalid _ _ _
      · split
        · split
          · exact h.codeInvalid _ _ _
          · exact h.codeValue _ _ _ _
        · exact h.codeValue _ _ _ _

theorem discardHalf {s : State} (h : Safe s) (x : LowHalf) (slot : Nat) : Safe (Machine.discardHalf x slot s) :=
  Safe.raise (s := { s with lowHalf := none }) h.same _ _ _ _

theorem settleHalf {s : State} (h : Safe s) (keep : LowHalf → Bool) : Safe (Machine.settleHalf keep s) := by
  unfold Machine.settleHalf
  split
  · split
    · exact h
    · exact h.discardHalf _ _
  · exact h

theorem handOver {s : State} (h : Safe s) (x : SlotContent) (pos : Nat) : Safe (Machine.handOver x pos s) := by
  have missing : ∀ t : State, Safe t → Safe (match t.lowHalf with
      | some h => Machine.discardHalf h pos t
      | none => t) := by
    intro t ht
    split
    · exact ht.discardHalf _ _
    · exact ht
  unfold Machine.handOver
  split
  · exact h.settleHalf _
  · dsimp only
    split
    · unfold wideSlot
      split
      · exact (h.settleHalf _).processCode _ _ _
      · exact (h.settleHalf _).raise _ _ _ _
      all_goals exact h.settleHalf _
    · split
      · unfold evenSlot
        split
        · exact (h.settleHalf _).same
        · exact (h.settleHalf _).raise _ _ _ _
        all_goals exact h.settleHalf _
      · unfold oddSlot
        dsimp only
        split
        · split
          · refine Safe.processCode (Safe.same (h.settleHalf _)) _ _ _
          · exact (h.settleHalf _).raise _ _ _ _
        · exact missing _ ((h.settleHalf _).raise _ _ _ _)
        all_goals exact missing _ (h.settleHalf _)

theorem leftForStale {s : State} (h : Safe s) (was : ChanState) (ch : Fin 128) (v : Half) :
    Safe (Machine.leftForStale was ch v s) := by
  unfold Machine.leftForStale
  split
  · exact h.giveLoss _ _ _
  · exact h.raise _ _ _ _

theorem makeStale {s : State} (h : Safe s) (ch : Fin 128) (v : Half) (c : Channel) :
    Safe (Machine.makeStale ch v c s) :=
  (h.setChannel _ _).leftForStale _ _ _

theorem channelsWarmReset {s : State} (h : Safe s) : Safe (Machine.channelsWarmReset s) :=
  Safe.inOpenOrder h.same fun _ _ _ ht => ht.leftForStale _ _ _

theorem channelStale {s : State} (h : Safe s) (ch : Fin 128) : Safe (Machine.channelStale ch s) := by
  unfold Machine.channelStale
  split
  · exact h.makeStale _ _ _
  · exact h

theorem channelsClose {s : State} (h : Safe s) : Safe (Machine.channelsClose s) := by
  refine Safe.inOpenOrder (s := { s with channels := s.channels.map quietClose }) h.same ?_
  intro w _ t ht
  cases w with
  | half x => exact ht.discardHalf x _
  | stale ch => exact ht.channelStale ch

theorem channelWritten {s : State} (h : Safe s) (ch : Fin 128) (c : Channel) :
    Safe (Machine.channelWritten ch c s) := by
  unfold Machine.channelWritten bindLimits
  dsimp only
  split
  · exact h.setChannel _ _
  · exact (h.setChannel _ _).giveLoss _ _ _
  · exact foldl_keeps (P := Safe) _ (fun i _ t ht => ht.limitBound i) _ ((h.setChannel _ _).raise _ _ _ _)
  · split
    · exact h.setChannel _ _
    · exact h.makeStale _ _ _

theorem setForce {s : State} (h : Safe s) (ch : Fin 128) (v : Int) : Safe (Machine.setForce ch v s) :=
  (h.setChannel _ _).giveUpdate _ _ _

theorem releaseForce {s : State} (h : Safe s) (ch : Fin 128) : Safe (Machine.releaseForce ch s) := by
  unfold Machine.releaseForce
  split
  · exact h.makeStale _ _ _
  · exact h

/-! ### Round closes -/

/-- The start of the node-ring break stops the nacelle at once (R14). -/
theorem ringBreak {s : State} (h : Safe s) : Safe (Machine.ringBreak s) := by
  unfold Machine.ringBreak
  split
  · refine Safe.yawToHeld (Safe.holdOnline (stopDemand_of _ ?_ ?_ ?_ ?_ ?_))
    · simpa [clearRunEnable] using h.stopLine
    · simpa [clearRunEnable] using h.brakeLine
    · simpa [clearRunEnable] using h.onlineOperating
    · exact raise_queue_le _ _ _ _ _ h.queueBound
    · simpa [clearRunEnable] using h.windowBound
  · exact h

theorem blocksClose {s : State} (h : Safe s) : Safe (Machine.blocksClose s) := by
  refine h.inOpenOrder ?_
  intro b _ t ht
  cases b with
  | channels => exact ht.channelsClose
  | sections => exact ht.sectionsClose
  | power => exact ht.powerClose
  | yaw => exact ht.yawClose
  | cooling => exact ht.coolingClose
  | ringBreak => exact ht.ringBreak

/-- The ring interface may take any state in which the break condition is as before or has ended. -/
theorem ringSet {s : State} (h : Safe s) (r : Ring) (broken : r.broken = true → s.ring.broken = true) :
    Safe { s with ring := r } where
  stopLine := h.stopLine
  brakeLine := h.brakeLine
  onlineOperating := h.onlineOperating
  operatingClear := fun e => by
    refine ⟨?_, (h.operatingClear e).2⟩
    cases hb : r.broken with
    | false => rfl
    | true => exact ((h.operatingClear e).1 ▸ broken hb).symm
  queueBound := h.queueBound
  windowBound := h.windowBound

end Safe

end Sys2Proof.Machine
end

