-- ==== Sys2Proof/Laws/Commands.lean ====
section
/-! SUPPORT. What every command keeps: the queue of commands, a safe state, and command plan and slot map
apart. -/

namespace Sys2Proof.Machine

/-- What every command keeps. -/
structure Kept (s t : State) : Prop where
  queue : t.pending = s.pending
  safe  : Safe s → Safe t
  apart : PlanApart s → PlanApart t

/-- Plan and slot map stay apart where neither changes. -/
theorem PlanApart.same {s t : State} (h : PlanApart s) (windows : t.windows = s.windows)
    (plan : t.plan = s.plan) : PlanApart t where
  slots := by rw [plan]; exact h.slots
  windows := by rw [plan, windows]; exact h.windows

namespace Kept

theorem refl (s : State) : Kept s s := ⟨rfl, id, id⟩

theorem trans {s t u : State} (h : Kept s t) (k : Kept t u) : Kept s u :=
  ⟨k.queue.trans h.queue, fun a => k.safe (h.safe a), fun a => k.apart (h.apart a)⟩

/-- The work of a block that keeps safety. -/
theorem ofBlock {s t : State} (h : BlockKept s t) (k : Safe s → Safe t) : Kept s t :=
  ⟨h.queue, k, fun a => a.same h.windows h.plan⟩

/-- A change of other fields that keeps safety. -/
theorem ofSame {s t : State} (k : Safe s → Safe t) (queue : t.pending = s.pending := by rfl)
    (windows : t.windows = s.windows := by rfl) (plan : t.plan = s.plan := by rfl) : Kept s t :=
  ⟨queue, k, fun a => a.same windows plan⟩

theorem inOpenOrder {α : Type} (l : List α) (f : α → State → State) (s : State)
    (h : ∀ a ∈ l, ∀ t, Kept t (f a t)) : Kept s (Machine.inOpenOrder l f s) :=
  inOpenOrder_keeps (P := Kept s) l s
    (fun t ht => ht.trans (ofBlock (ReaderKept.choiceMade t).block Safe.choiceMade))
    (fun a ha t ht => ht.trans (h a ha t)) (refl s)

theorem raise (c : Fin 128) (a : RecAction) (sub : Subject) (v : Option Half) (s : State) :
    Kept s (Machine.raise c a sub v s) :=
  ofBlock (BlockKept.raise c a sub v s) fun h => h.raise c a sub v

/-- The ring interface may take any state in which the break condition is as before or has ended. -/
theorem ringSet (s : State) (r : Ring) (broken : r.broken = true → s.ring.broken = true := by exact id) :
    Kept s { s with ring := r } :=
  ofSame fun h => h.ringSet r broken

/-! ### The ring interface -/

theorem sendNode (c : Cell) (s : State) : Kept s (Machine.sendNode c s) := ringSet s _

theorem sendTower (c : Cell) (s : State) : Kept s (Machine.sendTower c s) := ringSet s _

theorem blocksClose (s : State) : Kept s (Machine.blocksClose s) := by
  have k := blocksClose_kept s
  exact ⟨k.queue, Safe.blocksClose, fun a => a.same k.windows k.plan⟩

theorem roundCleared (s : State) : Kept s (Machine.roundCleared s) :=
  ofSame fun h => (h.ringSet { s.ring with roundOut := none, extCount := s.ring.extCount + 1 } id).same

theorem rejoinComplete (s : State) : Kept s (Machine.rejoinComplete s) := by
  unfold Machine.rejoinComplete
  split
  · exact ringSet s _
  · exact refl s

theorem ringBreakEnd (s : State) : Kept s (Machine.ringBreakEnd s) := by
  unfold Machine.ringBreakEnd
  split
  · exact ringSet s _ (fun h => by cases h)
  · exact refl s

theorem lapseRound (s : State) : Kept s (Machine.lapseRound s) := by
  unfold Machine.lapseRound
  split
  · rename_i o _
    have k : Kept (Machine.roundCleared s) (lapseCounted o (Machine.roundCleared s)) :=
      (ringSet _ _).trans (raise _ _ _ _ _)
    exact (roundCleared s).trans (k.trans ((rejoinComplete _).trans (blocksClose _)))
  · exact refl s

theorem closeByReturn (s : State) : Kept s (Machine.closeByReturn s) := by
  have k : Kept (Machine.roundCleared s) (returnCounted (Machine.roundCleared s)) := ringSet _ _
  exact (roundCleared s).trans (k.trans ((ringBreakEnd _).trans ((rejoinComplete _).trans (blocksClose _))))

theorem openRound (o : Originator) (head : Cell) (number : Half) (last now : Nat) (s : State) :
    Kept s (Machine.openRound o head number last now s) := ringSet s _

theorem openIsland (now : Nat) (s : State) : Kept s (Machine.openIsland now s) := ringSet s _

theorem headArrival (c : Cell) (now : Nat) (s : State) : Kept s (Machine.headArrival c now s) := by
  unfold Machine.headArrival
  split
  · split
    · unfold followHead
      dsimp only
      refine (lapseRound s).trans ?_
      have k : ∀ u, Kept u (Machine.openRound .tower c (roundNumber c) (lastSlot c) now
          (headRecorded c true now u)) := fun u => (ringSet u _).trans (openRound _ _ _ _ _ _)
      split
      · exact (raise _ _ _ _ _).trans (k _)
      · exact k _
    · exact ringSet s _
    · exact ringSet s _
  · unfold rejectHead
    split <;> exact raise _ _ _ _ _

theorem awaitDue (now : Nat) (s : State) : Kept s (Machine.awaitDue now s) := by
  unfold Machine.awaitDue
  split
  · split
    · exact ringSet s _
    · exact refl s
  · exact refl s

theorem checkCell (port : Nat) (c : Cell) (pos : Nat) (s : State) : Kept s (Machine.checkCell port c pos s) := by
  unfold Machine.checkCell
  split
  · exact refl s
  · exact raise _ _ _ _ _

/-! ### The management unit -/

theorem prepare (r : Reply) (s : State) : Kept s (Machine.prepare r s) := ofSame fun h => h.same

theorem withAuthority (table : Octet) (r : ReqArgs) (f : Authority → State → State) (s : State)
    (h : ∀ a, Kept s (f a s)) : Kept s (Machine.withAuthority table r f s) := by
  unfold Machine.withAuthority
  split
  · exact prepare _ s
  · exact h _

theorem inFollowing (f : State → State) (s : State) (h : Kept s (f s)) : Kept s (Machine.inFollowing f s) := by
  unfold Machine.inFollowing
  split
  · exact h
  · exact refl s

theorem readRequest (table : Octet) (r : ReqArgs) (s : State) : Kept s (Machine.readRequest table r s) :=
  withAuthority _ _ _ s fun _ => prepare _ s

theorem statusRequest (table : Octet) (r : ReqArgs) (s : State) : Kept s (Machine.statusRequest table r s) :=
  withAuthority _ _ _ s fun _ => prepare _ s

/-- A window written keeps plan and slot map apart: an enabled one has passed its checks, and its interval is read
by none of them (R23). -/
theorem writeWindow {i : Fin 32} {f : Nat} {z : Int} {s u : State} (h : Machine.writeWindow i f z s = some u) :
    Kept s u := by
  unfold Machine.writeWindow at h
  dsimp only at h
  split at h
  · cases h
  · rename_i c
    simp only [Option.some.injEq] at h
    subst h
    refine ⟨rfl, fun a => a.same, fun a => ⟨a.slots, fun k j hk hj => ?_⟩⟩
    simp only [State.setWindow, Fin.getElem_fin, Vector.getElem_set] at hj ⊢
    split
    · rename_i e
      obtain rfl : i = j := Fin.ext e
      rw [if_pos rfl] at hj
      by_cases h5 : f = 5
      · subst h5
        exact a.windows k i hk hj
      · have w := (windowConsistent_iff s (windowWith s.windows[i] f z)).1 (by
          cases hc : windowConsistent s (windowWith s.windows[i] f z) with
          | true => rfl
          | false => exact absurd (by rw [hc]; simp [h5]; exact hj) c)
        exact w.2.2.2 k hk
    · rename_i e
      rw [if_neg e] at hj
      exact a.windows k j hk hj

/-- A command-plan entry written keeps plan and slot map apart: an enabled one has passed its checks (R182). -/
theorem writePlan {k : Fin 16} {f : Nat} {z : Int} {s u : State} (h : Machine.writePlan k f z s = some u) :
    Kept s u := by
  unfold Machine.writePlan at h
  dsimp only at h
  split at h
  · cases h
  · rename_i c
    simp only [Option.some.injEq] at h
    subst h
    have cons : (planWith s.plan[k] f z).enable = true → planConsistent s k (planWith s.plan[k] f z) = true := by
      intro e
      cases hc : planConsistent s k (planWith s.plan[k] f z) with
      | true => rfl
      | false => exact absurd (by rw [hc, e]; rfl) c
    have at_ : ∀ j : Fin 16, (s.setPlan k (planWith s.plan[k] f z)).plan[j] =
        if k = j then planWith s.plan[k] f z else s.plan[j] := by
      intro j
      simp only [State.setPlan, Fin.getElem_fin, Vector.getElem_set, Fin.ext_iff]
    refine ⟨rfl, fun a => a.same, fun a => ⟨fun j l hj hl n => ?_, fun j i hj hi => ?_⟩⟩
    · rw [at_] at hj hl ⊢
      rw [at_ l]
      by_cases ej : k = j
      · subst ej
        rw [if_pos rfl] at hj ⊢
        rw [if_neg n] at hl ⊢
        have w := ((planConsistent_iff s k _).1 (cons hj)).1 l (Ne.symm n) hl
        exact ⟨w.1.symm, w.2.symm⟩
      · rw [if_neg ej] at hj ⊢
        by_cases el : k = l
        · subst el
          rw [if_pos rfl] at hl ⊢
          exact ((planConsistent_iff s k _).1 (cons hl)).1 j n hj
        · rw [if_neg el] at hl ⊢
          exact a.slots j l hj hl n
    · rw [at_] at hj ⊢
      by_cases ej : k = j
      · subst ej
        rw [if_pos rfl] at hj ⊢
        exact ((planConsistent_iff s k _).1 (cons hj)).2 i hi
      · rw [if_neg ej] at hj ⊢
        exact a.windows j i hj hi

theorem hardCheck (b : Bool) (s : State) : Kept s (Machine.hardCheck b s) :=
  ofBlock (ReaderKept.hardCheck b s).block fun h => h.hardCheck b

theorem limitWritten (i : Fin 96) (old l : Limit) (a b : Bool) (s : State) :
    Kept s (Machine.limitWritten i old l a b s) := by
  refine ofBlock ?_ fun h => h.limitWritten i old l a b
  unfold Machine.limitWritten armLimit
  split
  · exact (ReaderKept.setLimit s i _).block
  · split
    · exact ((ReaderKept.setLimit s i _).trans (ReaderKept.levelEntered i _)).block
    · split <;> exact (ReaderKept.setLimit s i _).block

theorem writeSect (i : Fin 6) (f : Nat) (z : Int) (s : State) : Kept s (Machine.writeSect i f z s) := by
  have k : ∀ x : Sect, BlockKept s (s.setSect i x) := fun x => (ReaderKept.setSect s i x).block
  refine ofBlock ?_ fun h => h.writeSect i f z
  unfold Machine.writeSect writePresent writeHeatsink
  dsimp only
  split
  · split
    · exact BlockKept.refl s
    · split
      · exact (k _).trans (ReaderKept.thermalNow i _).block
      · exact k _
  · exact k _
  · exact k _
  · split
    · exact (k _).trans (ReaderKept.thermalNow i _).block
    · exact k _
  · exact k _
  · exact k _

theorem writeConverter (f : Nat) (z : Int) (s : State) : Kept s (Machine.writeConverter f z s) := by
  refine ofBlock ?_ fun h => h.writeConverter f z
  unfold Machine.writeConverter
  split
  · exact BlockKept.powerSet s _
  · exact BlockKept.powerSet s _
  · exact BlockKept.powerSet s _
  · exact BlockKept.trans (t := { s with power := { s.power with sectionBlind := z.toNat } })
      (BlockKept.powerSet s _) (BlockKept.sectsSet _ _)

theorem coolSettingsWritten (f : Nat) (s : State) : Kept s (Machine.coolSettingsWritten f s) := by
  have now : ReaderKept s (coolantNow s) := by
    unfold coolantNow
    split
    · exact ReaderKept.coolantUpdate _ s
    · exact ReaderKept.coolantLoss s
  refine ofBlock (ReaderKept.block ?_) fun h => h.coolSettingsWritten f
  unfold Machine.coolSettingsWritten
  split
  · exact now.trans (ReaderKept.formMargin _)
  · exact ReaderKept.formMargin s
  · exact ReaderKept.formMargin s
  · split
    · exact (ReaderKept.coolSet s _).trans (ReaderKept.formFactor _)
    · exact ReaderKept.refl s
  all_goals first
    | exact ReaderKept.formFactor s
    | exact ReaderKept.guardTest s
    | exact ReaderKept.heaterJudge s
    | exact ReaderKept.dryLossTest s
    | exact ReaderKept.refl s

theorem writePump (k : Fin 3) (f : Nat) (z : Int) (s : State) : Kept s (Machine.writePump k f z s) := by
  refine ofBlock ?_ fun h => h.writePump k f z
  unfold Machine.writePump writePumpPresent clearFailedPump
  dsimp only
  split
  · split
    · exact BlockKept.refl s
    · exact (BlockKept.setPump s k _).trans (BlockKept.pumpsAfterWrite _)
  · exact BlockKept.setPump s k _
  · exact BlockKept.setPump s k _
  · split
    · exact (BlockKept.setPump s k _).trans (BlockKept.pumpsAfterWrite _)
    · exact BlockKept.refl s

theorem channelWritten (ch : Fin 128) (c : Channel) (s : State) : Kept s (Machine.channelWritten ch c s) :=
  ofBlock (BlockKept.channelWritten ch c s) fun h => h.channelWritten ch c

/-- A write that is taken keeps what every command keeps (R178). -/
theorem applyWrite {table i f : Nat} {z : Int} {s u : State} (h : Machine.applyWrite table i f z s = some u) :
    Kept s u := by
  unfold Machine.applyWrite at h
  split at h
  · cases h; exact ringSet s _
  · exact writeWindow h
  · unfold writeChannel at h
    dsimp only at h
    split at h
    · cases h
    · cases h; exact channelWritten _ _ s
  · unfold writeRemap at h
    dsimp only at h
    split at h
    · cases h; exact channelWritten _ _ s
    · cases h
  · unfold writeLimit at h
    dsimp only at h
    split at h
    · cases h
    · cases h; exact limitWritten _ _ _ _ _ s
  · unfold writeCurve at h
    dsimp only at h
    split at h
    · cases h
    · cases h; exact ofSame fun a => a.same
  · exact writePlan h
  · cases h; exact writeSect _ _ _ s
  · cases h; exact writeConverter _ _ s
  · unfold writeYaw at h
    dsimp only at h
    split at h
    · cases h
      unfold writeYawSettings
      dsimp only
      refine Kept.trans (ofSame fun a => ?_) (hardCheck _ _)
      refine a.same (mode := ?_) (window := ?_)
      all_goals dsimp only; split <;> rfl
    · cases h
  · cases h
    exact (ofBlock (BlockKept.yawSet s _) fun a => a.yawSet _).trans (hardCheck _ _)
  · unfold writeCool at h
    dsimp only at h
    split at h
    · cases h
      exact Kept.trans (t := { s with coolCfg := coolWith s.coolCfg f z }) (ofSame fun a => a.same)
        (coolSettingsWritten _ _)
    · cases h
  · cases h; exact writePump _ _ _ s
  · cases h
    unfold writeCause
    dsimp only
    split <;> exact ofSame fun a => a.same
  · cases h; exact refl s

theorem writeRequest (table : Octet) (r : ReqArgs) (s : State) : Kept s (Machine.writeRequest table r s) := by
  refine withAuthority _ _ _ s fun a => ?_
  split
  · exact prepare _ s
  · split
    · split
      · exact Kept.trans (t := { s with sup := { s.sup with mode := modeWritten a r.value s.sup.mode } })
          (ofSame fun h => h.same) (prepare _ _)
      · exact prepare _ s
    · unfold writeChecked
      dsimp only
      split
      · exact prepare _ s
      · split
        · exact prepare _ s
        · split
          · exact prepare _ s
          · split
            · exact prepare _ s
            · split
              · exact prepare _ s
              · rename_i u hu
                exact (applyWrite hu).trans (prepare _ u)

theorem riseAgain (c : Fin 128) (s : State) : Kept s (Machine.riseAgain c s) := by
  unfold Machine.riseAgain
  split
  · exact raise _ _ _ _ s
  · exact refl s

theorem clearCauses (l : List (Fin 128)) (s : State) : Kept s (Machine.clearCauses l s) := by
  have one : ∀ c t, Kept t (clearStep1 c t) := by
    intro c t
    have k : Kept t (t.setCause c { t.causes[c] with pending := false, injected := false }) :=
      ofSame fun h => h.same
    unfold clearStep1
    dsimp only
    split
    · refine k.trans (inOpenOrder _ _ _ fun i _ u => ?_)
      refine ofBlock (ReaderKept.block ?_) fun h => h.clearLimit c i
      unfold clearLimit
      dsimp only
      split
      · split
        · split
          · exact (ReaderKept.setLimit u i _).trans (ReaderKept.levelEntered i _)
          · exact ReaderKept.refl u
        · exact ReaderKept.refl u
      · exact ReaderKept.refl u
    · split
      · exact k.trans (ofSame fun h => h.same)
      · exact k
  unfold Machine.clearCauses
  refine foldl_keeps (P := Kept s) _ (fun c _ t ht => ht.trans (riseAgain c t)) _ ?_
  exact foldl_keeps (P := Kept s) _ (fun c _ t ht => ht.trans (one c t)) _ (refl s)

theorem clearRequest (table : Octet) (r : ReqArgs) (s : State) : Kept s (Machine.clearRequest table r s) := by
  refine withAuthority _ _ _ s fun a => ?_
  split
  · exact prepare _ s
  · split
    · exact prepare _ s
    · exact (clearCauses _ s).trans (prepare _ _)

/-- A command keeps what every command keeps when its effect does once its checks have passed (R184). -/
theorem commandRequest (no : Octet) (c : Command) (r : ReqArgs) (s : State)
    (h : c.refusal s = none → Kept s (c.effect s)) : Kept s (Machine.commandRequest no c r s) := by
  refine withAuthority _ _ _ s fun a => ?_
  split
  · exact prepare _ s
  · split
    · exact prepare _ s
    · split
      · exact prepare _ s
      · split
        · exact prepare _ s
        · rename_i e
          exact (h e).trans (prepare _ _)

/-! ### Resets -/

theorem resetRises (s : State) : Kept s (Machine.resetRises s) := by
  unfold Machine.resetRises
  exact inOpenOrder _ _ _ fun c _ t => riseAgain c t

/-- The reset of the blocks but the channel unit leaves a safe state, whatever stood before (R171). -/
theorem othersWarmReset (s : State) : Kept s (Machine.othersWarmReset s) := by
  have queue : (Machine.othersWarmReset s).pending = s.pending := by cases s; rfl
  have windows : (Machine.othersWarmReset s).windows = s.windows := by cases s; rfl
  have plan : (Machine.othersWarmReset s).plan = s.plan := by cases s; rfl
  have sects : (Machine.othersWarmReset s).sects = (sectionsWarmReset s).sects := by cases s; rfl
  refine ofSame (fun _ => ⟨rfl, rfl, fun i hi => ?_, (fun e => nomatch e), ?_, ?_⟩) queue windows plan
  · rw [sects] at hi
    simp only [sectionsWarmReset, Fin.getElem_fin, Vector.getElem_map] at hi
    split at hi <;> cases hi
  · exact Nat.zero_le _
  · exact Nat.zero_le _

theorem warmReset (s : State) : Kept s (Machine.warmReset s) := by
  refine Kept.trans (t := { s with reply := none }) (ofSame fun h => h.same) (Kept.trans ?_ (resetRises _))
  refine inOpenOrder _ _ _ fun part _ t => ?_
  cases part
  · exact ofBlock (BlockKept.channelsWarmReset t) Safe.channelsWarmReset
  · exact othersWarmReset t

/-- A cold reset leaves a safe state, whatever stood before (R19, R164). -/
theorem coldReset (now : Nat) (s : State) : Safe (Machine.coldReset now s) ∧
    PlanApart (Machine.coldReset now s) ∧ (Machine.coldReset now s).pending = s.pending := by
  have h : Safe (coldState now s) :=
    { stopLine := rfl
      brakeLine := rfl
      onlineOperating := by
        intro i hi
        have e : (coldState now s).sects[i].state = .absent := by
          simp [coldState, State.coldBase, Sect.cold]
        rw [e] at hi; cases hi
      operatingClear := fun e => by cases e
      queueBound := Nat.zero_le _
      windowBound := Nat.zero_le _ }
  have p : PlanApart (coldState now s) := by
    have e : ∀ k : Fin 16, (coldState now s).plan[k].enable = false := by
      intro k; simp [coldState, State.coldBase, PlanEntry.cold]
    exact ⟨fun j k hj => absurd hj (by rw [e]; decide), fun k i hk => absurd hk (by rw [e]; decide)⟩
  have k := resetRises (coldState now s)
  exact ⟨k.safe h, k.apart p, k.queue⟩

/-! ### The commands' effects -/

/-- A check that is not the first to fail passes when none fails. -/
theorem of_firstFailing {l : List Bool} (h : firstFailing l = none) : ∀ b ∈ l, b = true := by
  induction l with
  | nil => simp
  | cons b l ih =>
    cases b with
    | false => simp [firstFailing] at h
    | true =>
      simp only [firstFailing, Option.map_eq_none_iff] at h
      simpa using ih h

theorem start {s : State} (h : startRefusal s = none) : Kept s (startNacelle s) := by
  unfold startRefusal at h
  have k : firstFailing (startChecks s) = none := by
    split at h
    · cases h
    · cases h
    · exact h
    · exact h
  have c := of_firstFailing k
  have b : s.ring.broken = false := by simpa using c (!s.ring.broken) (by simp [startChecks])
  have e : s.lines.estopIn = false := by simpa using c (!s.lines.estopIn) (by simp [startChecks])
  exact ofSame fun a => ⟨rfl, a.brakeLine, fun _ _ => rfl, fun _ => ⟨b, e⟩, a.queueBound, a.windowBound⟩

/-- The nacelle state becomes one other than OPERATING, from one other than OPERATING. -/
theorem putNacelle {s : State} (n : Nacelle) (r : StopReason) (h : s.sup.nacelle ≠ .operating)
    (hn : n ≠ .operating) : Kept s (Machine.putNacelle n r s) := by
  refine ofSame fun a => ⟨rfl, a.brakeLine, fun i hi => absurd (a.onlineOperating i hi) h,
    fun e => absurd e hn, a.queueBound, a.windowBound⟩

theorem testEnter {s : State} (h : firstFailing (testEnterChecks s) = none) : Kept s (enterTest s) := by
  have c := of_firstFailing h
  have n : s.sup.nacelle ≠ .operating := by
    have := c _ (List.mem_cons_self ..)
    intro e; simp [e] at this
  exact (putNacelle .test .none n (by decide)).trans ((raise _ _ _ _ _).trans
    (ofBlock (BlockKept.yawToHeld _) Safe.yawToHeld))

theorem releaseForce (ch : Fin 128) (s : State) : Kept s (Machine.releaseForce ch s) :=
  ofBlock (BlockKept.releaseForce ch s) fun h => h.releaseForce ch

/-- Releasing forces starts no nacelle. -/
theorem releaseForce_sup (ch : Fin 128) (s : State) (h : s.sup.nacelle ≠ .operating) :
    (Machine.releaseForce ch s).sup.nacelle ≠ .operating := by
  unfold Machine.releaseForce
  split
  · rw [(makeStale_sup ..).1]; exact h
  · exact h

theorem testExit {s : State} (h : firstFailing [inTest s] = none) : Kept s (exitTest s) := by
  have n : s.sup.nacelle ≠ .operating := by
    have c := of_firstFailing h (inTest s) (by simp)
    intro e; simp [inTest, e] at c
  have k : Kept s (Machine.inOpenOrder (forcedSet s) Machine.releaseForce s) :=
    inOpenOrder _ _ _ fun ch _ t => releaseForce ch t
  have m : (Machine.inOpenOrder (forcedSet s) Machine.releaseForce s).sup.nacelle ≠ .operating :=
    inOpenOrder_keeps (P := fun t => t.sup.nacelle ≠ .operating) _ s
      (fun t ht => by unfold State.choiceMade; split <;> exact ht)
      (fun ch _ t ht => releaseForce_sup ch t ht) n
  exact k.trans ((putNacelle .stopped .management m (by decide)).trans
    (ofBlock (BlockKept.yawSet _ _) Safe.windowEmptied))

theorem sectionRelease {i : Fin 6} {s : State} (h : firstFailing (releaseChecks i s) = none) :
    Kept s (releaseSect i s) := by
  have n : s.sup.nacelle = .operating := by
    simpa using of_firstFailing h _ (List.mem_cons_self ..)
  refine ofSame fun a => ⟨a.stopLine, a.brakeLine, fun _ _ => n, a.operatingClear, a.queueBound, a.windowBound⟩

theorem sectionHold (i : Fin 6) (s : State) : Kept s (holdSect i s) := by
  unfold holdSect
  dsimp only
  split
  · exact ofBlock (ReaderKept.setSect s i _).block fun h => h.setSect i _ fun e => by cases e
  · exact refl s

theorem putYaw (y : Yaw) (s : State) (w : y.window = s.yaw.window) : Kept s (Machine.putYaw y s) :=
  ofBlock (BlockKept.putYaw y s) fun h => h.putYaw y (w ▸ h.windowBound)

theorem injectCause (c : Fin 128) (s : State) : Kept s (Machine.injectCause c s) := by
  unfold Machine.injectCause
  refine Kept.trans ?_ (raise _ _ _ _ _)
  split
  · exact ofSame fun h => h.same
  · exact refl s

theorem stop (r : StopReason) (s : State) : Kept s (Machine.stopDemand r s) :=
  ofBlock (ReaderKept.stopDemand r s).block fun h => h.stopDemand r

theorem beginJog (d : Turn) (n : Nat) (s : State) : Kept s (Machine.beginJog d n s) :=
  Kept.trans (t := { s with yaw := { s.yaw with jogRounds := n } })
    (ofBlock (BlockKept.yawSet s _) fun h => h.yawSet _) (putYaw _ _ rfl)

theorem setForce (ch : Fin 128) (v : Int) (s : State) : Kept s (Machine.setForce ch v s) :=
  ofBlock (BlockKept.setForce ch v s) fun h => h.setForce ch v

/-- Every command of R184 keeps what every command keeps. -/
theorem commandOf {no : Octet} {r : ReqArgs} {c : Command} (h : Machine.commandOf no r = some c) (s : State)
    (k : c.refusal s = none) : Kept s (c.effect s) := by
  unfold Machine.commandOf at h
  split at h <;> cases h
  · exact start k
  · exact stop _ s
  · exact warmReset s
  · exact testEnter k
  · exact testExit k
  · exact sectionRelease k
  · exact sectionHold _ s
  · exact putYaw _ s rfl
  · exact putYaw _ s rfl
  · exact beginJog _ _ s
  · exact setForce _ _ s
  · exact injectCause _ s
  · exact releaseForce _ s

theorem requestArrival (a b : Cell) (s : State) : Kept s (Machine.requestArrival a b s) := by
  unfold Machine.requestArrival
  dsimp only
  split
  · exact readRequest _ _ s
  · exact writeRequest _ _ s
  · exact clearRequest _ _ s
  · split
    · rename_i c hc
      exact commandRequest _ c _ s (commandOf hc s)
    · exact withAuthority _ _ _ s fun _ => prepare _ s
  · exact statusRequest _ _ s
  · exact prepare _ s

/-! ### Cells -/

theorem towerPortCell (c : Cell) (now : Nat) (s : State) : Kept s (Machine.towerPortCell c now s) := by
  have slot : ∀ pos t, Kept t (forwardSlot c pos t) := by
    intro pos t
    unfold forwardSlot
    split
    · refine Kept.trans ?_ (sendNode _ _)
      split
      · exact refl t
      · split
        · exact ofSame fun h => h.same
        · split
          · exact refl t
          · exact raise _ _ _ _ t
    · refine Kept.trans ?_ (sendNode _ _)
      split
      · exact refl t
      · split
        · exact ringSet t _
        · split
          · exact refl t
          · exact raise _ _ _ _ t
    · refine Kept.trans ?_ (sendNode _ _)
      split
      · dsimp only
        split
        · exact (ringSet t _).trans (requestArrival _ _ _)
        · exact (ringSet t _).trans (prepare _ _)
      · exact refl t
    all_goals first
      | exact sendNode _ t
      | (unfold nodeSlotDown; split <;> exact sendNode _ t)
  unfold Machine.towerPortCell
  dsimp only
  refine (awaitDue now s).trans ?_
  split
  · exact headArrival c now _
  · rename_i p _
    have k : Kept (Machine.awaitDue now s) (Machine.checkCell 0 c p.nextPos (portAdvanced p (Machine.awaitDue now s))) :=
      (ringSet _ _).trans (checkCell _ _ _ _)
    split
    · exact k.trans (slot _ _)
    · exact k

theorem nodeInCell (c : Cell) (s : State) : Kept s (Machine.nodeInCell c s) := by
  have slot : ∀ pos t, Kept t (upstreamSlot c pos t) := by
    intro pos t
    unfold upstreamSlot
    split
    · exact sendTower _ t
    · split
      · unfold reservedSlot
        split
        · exact sendTower _ t
        · exact Kept.trans (t := { t with reply := none }) (ofSame fun h => h.same) (sendTower _ _)
        · unfold reportSlotA
          split
          · exact Kept.trans (t := { t with reports := { t.reports with delivering := true } })
              (ofSame fun h => h.same) (sendTower _ _)
          · exact sendTower _ t
        · unfold reportSlotB
          split
          · refine Kept.trans (t := recordLeaves t) (ofSame fun h => h.same (queue := fun q => ?_)) (sendTower _ _)
            simp only [recordLeaves, List.length_tail]
            omega
          · exact sendTower _ t
        · exact sendTower _ t
      · unfold nodeSlotUp
        refine Kept.trans ?_ (sendTower _ _)
        split
        · split
          · exact raise _ _ _ _ t
          · exact refl t
        · exact ofBlock (BlockKept.handOver _ _ t) fun h => h.handOver _ _
  unfold Machine.nodeInCell
  split
  · exact refl s
  · rename_i o _
    split
    · unfold upstreamCell
      dsimp only
      have k := (ringSet s { s.ring with roundOut := some { o with nextPos := o.nextPos + 1 } }).trans
        ((checkCell 1 c o.nextPos _).trans (slot o.nextPos _))
      split
      · exact k.trans (closeByReturn _)
      · exact k
    · split
      · exact (ringSet s { s.ring with roundOut := some { o with headReturned := true, nextPos := 1 } }).trans
          (sendTower c _)
      · exact refl s

theorem pumpsSettled (f : State → State) (s : State) (h : Kept s (f s)) : Kept s (Machine.pumpsSettled f s) := by
  unfold Machine.pumpsSettled
  dsimp only
  split
  · exact h
  · exact h.trans (ofBlock ((BlockKept.shortTest _).trans (BlockKept.formFactor _))
      fun a => a.shortTest.formFactor)

end Kept

end Sys2Proof.Machine
end

