-- ==== Sys2Proof/Laws/Supervisor.lean ====
section
/-! SUPPORT. What a warm reset does, said once, whichever part is reached first: the channel losses that the
channel unit hands out leave no trace beside causes and records (R36, R40, R171). -/

namespace Sys2Proof.Machine

/-- An entry that a reset takes to the same value leaves no trace of its change. -/
theorem map_set_of_eq {α β : Type} {n : Nat} (f : α → β) (v : Vector α n) (i : Fin n) (x : α) (h : f x = f v[i]) :
    (v.set i x).map f = v.map f := by
  ext j hj
  simp only [Vector.getElem_map, Vector.getElem_set]
  split
  · rename_i e; subst e; exact h
  · rfl

/-- The values that the blocks but the channel unit take (R68, R88, R106, R130, R150, R164, R171). -/
theorem othersWarmReset_eq (s : State) : othersWarmReset s =
    { s with
      limits := (limitsWarmReset s).limits, sects := (sectionsWarmReset s).sects
      power := (powerWarmReset s).power, yaw := (yawWarmReset s).yaw
      cool := (coolingWarmReset s).cool, pumps := (coolingWarmReset s).pumps
      causes := (causesWarmReset s).causes, reports := { queue := [], overflow := false, delivering := false }
      sup := { nacelle := .loading, reason := .none, mode := Mode.cold }
      lines := { s.lines with stopOut := true, brakeHold := true } } := by
  have part : ∀ q : State, q.ring = s.ring → q.reply = s.reply → q.windows = s.windows → q.lowHalf = s.lowHalf →
      q.channels = s.channels → q.curves = s.curves → q.limits = (limitsWarmReset s).limits →
      q.sects = (sectionsWarmReset s).sects → q.power = (powerWarmReset s).power → q.yawCfg = s.yawCfg →
      q.yaw = (yawWarmReset s).yaw → q.coolCfg = s.coolCfg → q.cool = (coolingWarmReset s).cool →
      q.pumps = (coolingWarmReset s).pumps → q.causes = (causesWarmReset s).causes →
      q.reports = { queue := [], overflow := false, delivering := false } →
      q.sup = { nacelle := .loading, reason := .none, mode := Mode.cold } →
      q.lines = { s.lines with stopOut := true, brakeHold := true } → q.plan = s.plan →
      q.choices = s.choices → q.choiceNo = s.choiceNo → q.pending = s.pending → q = { s with
        limits := (limitsWarmReset s).limits, sects := (sectionsWarmReset s).sects
        power := (powerWarmReset s).power, yaw := (yawWarmReset s).yaw
        cool := (coolingWarmReset s).cool, pumps := (coolingWarmReset s).pumps
        causes := (causesWarmReset s).causes, reports := { queue := [], overflow := false, delivering := false }
        sup := { nacelle := .loading, reason := .none, mode := Mode.cold }
        lines := { s.lines with stopOut := true, brakeHold := true } } := by
    rintro ⟨⟩ h1 h2 h3 h4 h5 h6 h7 h8 h9 h10 h11 h12 h13 h14 h15 h16 h17 h18 h19 h20 h21 h22
    simp only at h1 h2 h3 h4 h5 h6 h7 h8 h9 h10 h11 h12 h13 h14 h15 h16 h17 h18 h19 h20 h21 h22
    rw [h1, h2, h3, h4, h5, h6, h7, h8, h9, h10, h11, h12, h13, h14, h15, h16, h17, h18, h19, h20, h21, h22]
  refine part _ ?_ ?_ ?_ ?_ ?_ ?_ ?_ ?_ ?_ ?_ ?_ ?_ ?_ ?_ ?_ ?_ ?_ ?_ ?_ ?_ ?_ ?_
  case refine_13 =>
    exact (show (othersWarmReset s).cool = (coolingWarmReset (powerWarmReset (sectionsWarmReset
      (limitsWarmReset (causesWarmReset s))))).cool by cases s; rfl).trans
      (coolingWarmReset_cool_congr (by cases s; rfl) (by cases s; rfl))
  all_goals (cases s; rfl)

/-! ### Losses before the other blocks' reset -/

/-- What `t` has beside `s` is lost at the reset of the blocks. -/
def Washed (s t : State) : Prop :=
  othersWarmReset t = { othersWarmReset s with choices := t.choices, choiceNo := t.choiceNo }

namespace Washed

/-- Runtime that the resets overwrite may take any value. -/
theorem intro {s t : State}
    (frame : t = { s with
      limits := t.limits, sects := t.sects, yaw := t.yaw, cool := t.cool, causes := t.causes, reports := t.reports
      lines := { s.lines with brakeHold := t.lines.brakeHold }, choices := t.choices, choiceNo := t.choiceNo })
    (limits : (limitsWarmReset t).limits = (limitsWarmReset s).limits := by rfl)
    (sects : (sectionsWarmReset t).sects = (sectionsWarmReset s).sects := by rfl)
    (yaw : (yawWarmReset t).yaw = (yawWarmReset s).yaw := by rfl)
    (causes : (causesWarmReset t).causes = (causesWarmReset s).causes := by rfl) : Washed s t := by
  have cool : (coolingWarmReset t).cool = (coolingWarmReset s).cool :=
    coolingWarmReset_cool_congr (by rw [frame]) (by rw [frame])
  unfold Washed
  rw [othersWarmReset_eq, othersWarmReset_eq, limits, sects, yaw, causes, cool, frame]
  rfl

theorem refl (s : State) : Washed s s := intro rfl

theorem trans {s t u : State} (h : Washed s t) (k : Washed t u) : Washed s u := by
  unfold Washed at *
  rw [k, h]

theorem choiceMade (s : State) : Washed s s.choiceMade := by
  unfold State.choiceMade
  split <;> exact intro rfl

theorem raise (c : Fin 128) (a : RecAction) (sub : Subject) (v : Option Half) (s : State) :
    Washed s (Machine.raise c a sub v s) := by
  have h : (causesWarmReset (Machine.raise c a sub v s)).causes = (causesWarmReset s).causes := by
    ext j hj
    obtain ⟨h1, h2, _⟩ := raise_marks c ⟨j, hj⟩ a sub v s
    simp only [Fin.getElem_fin] at h1 h2
    simp only [causesWarmReset, Vector.getElem_map, h1, h2]
  rw [raise_frame] at h ⊢
  exact intro rfl (causes := h)

theorem setLimit (i : Fin 96) (target : Target) (counter : Nat) (s : State) :
    Washed s (s.setLimit i { s.limits[i] with counter := counter, target := target }) :=
  intro rfl (limits := map_set_of_eq _ _ i _ rfl)

theorem setSect (i : Fin 6) (state : SectState) (f : Nat) (blind fallback : Bool) (s : State) :
    Washed s (s.setSect i { s.sects[i] with
      state := state, thermal := f, blind := blind, curveFallback := fallback }) :=
  intro rfl (sects := map_set_of_eq _ _ i _ rfl)

theorem yawToHeld (s : State) : Washed s (Machine.yawToHeld s) := by
  unfold Machine.yawToHeld
  split
  · exact refl s
  · exact intro rfl

theorem coolSet (s : State) (c : Cool) : Washed s { s with cool := c } := intro rfl

theorem guardTest (s : State) : Washed s (Machine.guardTest s) := by
  unfold Machine.guardTest
  split
  · exact coolSet _ _
  · exact refl s

theorem dryLossTest (s : State) : Washed s (Machine.dryLossTest s) := by
  have h (p : Prop) [Decidable p] (a b : State) (ha : Washed s a) (hb : Washed s b) :
      Washed s (if p then a else b) := by
    split <;> assumption
  unfold Machine.dryLossTest
  dsimp only
  refine h _ _ _ (h _ _ _ ?_ (coolSet _ _)) (refl s)
  exact (coolSet _ _).trans (raise ..)

theorem formMargin (s : State) : Washed s (Machine.formMargin s) :=
  (coolSet s _).trans ((guardTest _).trans ((coolSet _ _).trans (dryLossTest _)))

theorem coolingLoss (ch : Fin 128) (s : State) : Washed s (Machine.coolingLoss ch s) := by
  have h : Washed s (if ch = s.coolCfg.tin then Machine.coolantLoss s else s) := by
    split
    · exact (coolSet s _).trans (raise ..)
    · exact refl s
  unfold Machine.coolingLoss
  dsimp only
  split
  · exact h.trans (formMargin _)
  · exact h

theorem lossWork (ch : Fin 128) (x : Reader) (s : State) : Washed s (Machine.lossWork ch false x s) := by
  cases x with
  | own c value => exact raise ..
  | limit i =>
    show Washed s (limitLoss i false s)
    unfold limitLoss
    dsimp only
    split
    · exact refl s
    · exact setLimit i _ _ s
  | heatsink i =>
    show Washed s (heatsinkLoss i s)
    unfold heatsinkLoss
    dsimp only
    split
    · exact refl s
    · exact (setSect i s.sects[i].state _ _ _ s).trans (raise ..)
  | status i =>
    show Washed s (statusLoss i s)
    unfold statusLoss
    dsimp only
    split
    · exact (setSect i .held s.sects[i].thermal s.sects[i].blind s.sects[i].curveFallback s).trans (raise ..)
    · exact refl s
  | heading =>
    show Washed s (headingLoss s)
    unfold headingLoss
    dsimp only
    split
    · exact (intro (t := { s with yaw := { s.yaw with reanchor := true, headingLost := true } }) rfl).trans ((yawToHeld _).trans (raise ..))
    · exact intro rfl
  | vane =>
    show Washed s (vaneLoss s)
    unfold vaneLoss
    split
    · exact intro rfl
    · exact refl s
  | cooling => exact coolingLoss ch s

theorem inOpenOrder {α : Type} (l : List α) (f : α → State → State) (s : State)
    (h : ∀ a ∈ l, ∀ t, Washed t (f a t)) : Washed s (Machine.inOpenOrder l f s) :=
  inOpenOrder_keeps (P := Washed s) l s (fun t ht => ht.trans (choiceMade t))
    (fun a ha t ht => ht.trans (h a ha t)) (refl s)

theorem leftForStale (was : ChanState) (ch : Fin 128) (value : Half) (s : State) :
    Washed s (Machine.leftForStale was ch value s) := by
  unfold Machine.leftForStale
  split
  · exact inOpenOrder _ _ s fun x _ t => lossWork ch x t
  · exact raise ..

end Washed

/-! ### Losses after the other blocks' reset -/

/-- What the readers of a channel hold once their blocks have been reset and no channel is usable (R68, R88, R130,
R150). -/
structure ReadersReset (s : State) : Prop where
  channels : ∀ ch : Fin 128, s.channels[ch].state ≠ .live
  limits   : ∀ i : Fin 96, s.limits[i].enable = true →
    s.limits[i].counter = 0 ∧ s.limits[i].target = s.limits[i].level.toTarget
  sects    : ∀ i : Fin 6, s.sects[i].state ≠ .online ∧ (s.sects[i].present = true →
    s.sects[i].thermal = s.power.sectionBlind ∧ s.sects[i].blind = true ∧ s.sects[i].curveFallback = false)
  held     : s.yaw.mode = .held
  reanchor : s.yaw.reanchor = true
  factor   : s.cool.factor = min s.coolCfg.blind (s.coolCfg.pumpFactor.toList.getD (runningCount s) 0)
  coolant  : s.cool.coolantFactor = s.coolCfg.blind
  blind    : s.cool.blindMark = true
  fallback : s.cool.fallbackMark = false
  margin   : s.cool.margin = none
  heater   : s.cool.heater = true
  dry      : s.cool.dry = false

/-- Causes, records and choices have moved on, and no EVENT cause with them (R164). -/
def OnlyRises (s t : State) : Prop :=
  t = { s with causes := t.causes, reports := t.reports, choices := t.choices, choiceNo := t.choiceNo } ∧
    (∀ c : Fin 128, s.causes[c].pending = true → t.causes[c].pending = true) ∧
    ∀ c : Fin 128, causeKind c = .event → t.causes[c] = s.causes[c]

namespace OnlyRises

theorem refl (s : State) : OnlyRises s s := ⟨rfl, fun _ h => h, fun _ _ => rfl⟩

theorem trans {s t u : State} (h : OnlyRises s t) (k : OnlyRises t u) : OnlyRises s u := by
  obtain ⟨h1, h2, h3⟩ := h
  obtain ⟨k1, k2, k3⟩ := k
  refine ⟨?_, fun c x => k2 c (h2 c x), fun c x => (k3 c x).trans (h3 c x)⟩
  rw [k1, h1]

theorem choiceMade (s : State) : OnlyRises s s.choiceMade := by
  unfold State.choiceMade
  split <;> exact ⟨rfl, fun _ h => h, fun _ _ => rfl⟩

/-- A rise of a LEVEL cause. -/
theorem raise (c : Fin 128) (a : RecAction) (sub : Subject) (v : Option Half) (s : State)
    (h : causeKind c ≠ .event) : OnlyRises s (Machine.raise c a sub v s) := by
  refine ⟨by rw [raise_frame], fun d => raise_pending_mono c d a sub v s, fun d e => ?_⟩
  have other (x : Fin 128) (hx : causeKind x ≠ .event) (cs : Vector Cause 128) (y : Cause) :
      (cs.set x y)[d] = cs[d] := by
    have n : ¬ x.val = d.val := fun k => hx ((Fin.ext k : x = d) ▸ e)
    simp only [Fin.getElem_fin, Vector.getElem_set_ne _ _ n]
  unfold Machine.raise fileRecord
  split
  · rfl
  · dsimp only
    split
    · split
      · exact other c h ..
      · exact (other _ (by decide) ..).trans (other c h ..)
    · exact other c h ..

theorem inOpenOrder {α : Type} {P : State → Prop} (l : List α) (f : α → State → State) (s : State)
    (keep : ∀ t, OnlyRises s t → P t) (h : ∀ a ∈ l, ∀ t, P t → OnlyRises t (f a t)) :
    OnlyRises s (Machine.inOpenOrder l f s) :=
  inOpenOrder_keeps (P := OnlyRises s) l s (fun t ht => ht.trans (choiceMade t))
    (fun a ha t ht => ht.trans (h a ha t (keep t ht))) (refl s)

end OnlyRises

namespace ReadersReset

theorem onlyRises {s t : State} (h : ReadersReset s) (k : OnlyRises s t) : ReadersReset t := by
  rw [k.1]
  exact ⟨h.channels, h.limits, h.sects, h.held, h.reanchor, h.factor, h.coolant, h.blind, h.fallback, h.margin,
    h.heater, h.dry⟩

theorem unusable {s : State} (h : ReadersReset s) (ch : Fin 128) : chanValue s ch = none := by
  unfold chanValue usable
  rw [if_neg (by simpa using h.channels ch)]

theorem formMargin {s : State} (h : ReadersReset s) : Machine.formMargin s = s := by
  have m : marginNow s = none := by
    unfold marginNow
    rw [h.unusable]
  have e : { s with cool := { s.cool with margin := none } } = s := by
    have := h.margin
    cases s
    rename_i cool _ _ _ _ _ _ _ _ _
    cases cool
    simp_all
  have g : guardTest s = s := by
    unfold guardTest guardApplies
    simp [h.margin]
  have w : heaterJudge s = s := by
    unfold heaterJudge
    have := h.heater
    simp only [h.margin]
    cases s
    rename_i cool _ _ _ _ _ _ _ _ _
    cases cool
    simp_all
  have d : dryLossTest s = s := by
    unfold dryLossTest
    simp [h.dry]
  unfold Machine.formMargin
  rw [m, e, g, w, d]

theorem coolantLoss {s : State} (h : ReadersReset s) : OnlyRises s (Machine.coolantLoss s) := by
  have e : formFactor { s with cool := { s.cool with
      coolantFactor := s.coolCfg.blind, blindMark := true, fallbackMark := false } } = s := by
    have h1 := h.factor
    have h2 := h.coolant
    have h3 := h.blind
    have h4 := h.fallback
    unfold formFactor
    unfold runningCount at *
    cases s
    rename_i cool _ _ _ _ _ _ _ _ _
    cases cool
    simp_all
  unfold Machine.coolantLoss
  rw [e]
  exact OnlyRises.raise _ _ _ _ _ (by decide)

theorem setSect_self {s : State} (i : Fin 6) (x : Sect) (e : x = s.sects[i]) : s.setSect i x = s := by
  subst e
  simp [State.setSect]

/-- A channel loss finds nothing left to do in a reader that has been reset, but for the cause that goes with it. -/
theorem lossWork {s : State} (h : ReadersReset s) (ch : Fin 128) (x : Reader)
    (own : ∀ c v, x = .own c v → causeKind c ≠ .event) : OnlyRises s (Machine.lossWork ch false x s) := by
  cases x with
  | own c value => exact OnlyRises.raise _ _ _ _ _ (own c value rfl)
  | limit i =>
    show OnlyRises s (limitLoss i false s)
    unfold limitLoss
    dsimp only
    split
    · exact OnlyRises.refl s
    · rename_i n
      obtain ⟨h1, h2⟩ := h.limits i (by simp_all)
      have e : { s.limits[i] with counter := 0, target := s.limits[i].level.toTarget } = s.limits[i] := by
        rw [← h1, ← h2]
      rw [if_neg (by decide), e, show s.setLimit i s.limits[i] = s by simp [State.setLimit]]
      exact OnlyRises.refl s
  | heatsink i =>
    show OnlyRises s (heatsinkLoss i s)
    unfold heatsinkLoss
    dsimp only
    split
    · exact OnlyRises.refl s
    · rename_i n
      obtain ⟨h1, h2, h3⟩ := (h.sects i).2 (by simpa using n)
      rw [setSect_self i _ (by rw [← h1, ← h2, ← h3])]
      exact OnlyRises.raise _ _ _ _ _ (by decide)
  | status i =>
    show OnlyRises s (statusLoss i s)
    unfold statusLoss
    dsimp only
    rw [if_neg (by simpa using fun _ => (h.sects i).1)]
    exact OnlyRises.refl s
  | heading =>
    show OnlyRises s (headingLoss s)
    unfold headingLoss movingMode
    have e : { s.yaw with reanchor := true } = s.yaw := by rw [← h.reanchor]
    rw [h.held, e]
    exact OnlyRises.refl s
  | vane =>
    show OnlyRises s (vaneLoss s)
    unfold vaneLoss
    rw [if_neg (by rw [h.held]; decide)]
    exact OnlyRises.refl s
  | cooling =>
    show OnlyRises s (coolingLoss ch s)
    have k : OnlyRises s (if ch = s.coolCfg.tin then Machine.coolantLoss s else s) := by
      split
      · exact h.coolantLoss
      · exact OnlyRises.refl s
    unfold coolingLoss
    dsimp only
    split
    · rw [(h.onlyRises k).formMargin]; exact k
    · exact k

theorem leftForStale {s : State} (h : ReadersReset s) (was : ChanState) (ch : Fin 128) (value : Half) :
    OnlyRises s (Machine.leftForStale was ch value s) := by
  unfold Machine.leftForStale
  split
  · refine OnlyRises.inOpenOrder _ _ s (fun t => h.onlyRises) fun x hx t ht => ht.lossWork ch x fun c v e => ?_
    subst e
    have k : c = CauseNo.channelStale := by
      simp only [readersOf] at hx
      aesop
    subst k
    decide
  · exact OnlyRises.raise _ _ _ _ _ (by decide)

end ReadersReset

/-! ### The warm reset -/

/-- Every value after a warm reset, but for the causes, the records and the open choices (R171). -/
def resetValues (s : State) : State :=
  othersWarmReset { s with reply := none, channels := s.channels.map channelWarm, lowHalf := none }

/-- The readers have been reset once the blocks have. -/
theorem readersReset_resetValues (s : State) : ReadersReset (resetValues s) := by
  unfold resetValues
  rw [othersWarmReset_eq]
  refine ⟨fun ch => ?_, fun i hi => ?_, fun i => ?_, rfl, rfl, rfl, rfl, rfl, rfl, rfl, rfl, rfl⟩
  · simp only [Fin.getElem_fin, Vector.getElem_map, channelWarm]
    split <;> simp
  · simp only [limitsWarmReset, Fin.getElem_fin, Vector.getElem_map] at hi ⊢
    split
    · simp only [armed]
      split <;> simp [Level.toTarget]
    · simp [disarmed, Level.toTarget]
  · simp only [sectionsWarmReset, powerWarmReset, Fin.getElem_fin, Vector.getElem_map]
    split
    · simp
    · rename_i n
      simpa using n

/-- The reset values of the other blocks do not depend on the runtime of the channels (R171). -/
theorem othersWarmReset_channels (s : State) :
    { othersWarmReset s with reply := none, channels := s.channels.map channelWarm, lowHalf := none } =
      resetValues s := by
  have l : (limitsWarmReset
      { s with reply := none, channels := s.channels.map channelWarm, lowHalf := none }).limits =
      (limitsWarmReset s).limits := by
    simp [limitsWarmReset, armed, channelWarm]
  have c : (coolingWarmReset
      { s with reply := none, channels := s.channels.map channelWarm, lowHalf := none }).cool =
      (coolingWarmReset s).cool := coolingWarmReset_cool_congr rfl rfl
  unfold resetValues
  rw [othersWarmReset_eq, othersWarmReset_eq, l, c]
  rfl

/-- The channel unit reached first: its losses are lost at the reset of the other blocks. -/
theorem othersWarmReset_afterChannels (s : State) (h : s.reply = none) :
    OnlyRises (resetValues s) (othersWarmReset (channelsWarmReset s)) := by
  have w : Washed { s with channels := s.channels.map channelWarm, lowHalf := none } (channelsWarmReset s) :=
    Washed.inOpenOrder _ _ _ fun ch _ t => Washed.leftForStale s.channels[ch].state ch 0 t
  have e : ({ s with channels := s.channels.map channelWarm, lowHalf := none } : State) =
      { s with reply := none, channels := s.channels.map channelWarm, lowHalf := none } := by rw [← h]
  rw [e] at w
  unfold Washed at w
  rw [w]
  exact ⟨rfl, fun _ h => h, fun _ _ => rfl⟩

/-- The other blocks reached first: the channel unit's losses then bring rises alone. -/
theorem channelsWarmReset_afterOthers (s : State) (h : s.reply = none) :
    OnlyRises (resetValues s) (channelsWarmReset (othersWarmReset s)) := by
  have c : (othersWarmReset s).channels = s.channels := by rw [othersWarmReset_eq]
  have r : (othersWarmReset s).reply = none := by rw [othersWarmReset_eq]; exact h
  have e : ({ othersWarmReset s with channels := s.channels.map channelWarm, lowHalf := none } : State) =
      resetValues s := by
    rw [← othersWarmReset_channels, ← r]
  unfold channelsWarmReset
  rw [c, e]
  exact OnlyRises.inOpenOrder _ _ _ (fun t => (readersReset_resetValues s).onlyRises)
    fun ch _ t ht => ht.leftForStale _ ch 0

theorem OnlyRises.resetRises (s : State) : OnlyRises s (Machine.resetRises s) := by
  refine OnlyRises.inOpenOrder (P := fun _ => True) _ _ _ (fun _ _ => trivial) fun c _ t _ => ?_
  unfold riseAgain
  split
  · rename_i h
    refine OnlyRises.raise _ _ _ _ _ ?_
    rw [show causeKind c = .level by simpa using (Bool.and_eq_true_iff.mp h).1]
    decide
  · exact OnlyRises.refl t

/-- A warm reset takes every part to its value, whichever block it reaches first, and raises LEVEL causes
(R164, R171). -/
theorem warmReset_onlyRises (s : State) : OnlyRises (resetValues s) (warmReset s) := by
  have made (u : State) : OnlyRises (resetValues u) (resetValues u.choiceMade) := by
    have w : Washed { u with reply := none, channels := u.channels.map channelWarm, lowHalf := none }
        { u.choiceMade with
          reply := none, channels := u.choiceMade.channels.map channelWarm, lowHalf := none } := by
      unfold State.choiceMade
      split <;> exact Washed.intro rfl
    unfold Washed at w
    unfold resetValues
    rw [w]
    exact ⟨rfl, fun _ h => h, fun _ _ => rfl⟩
  have bare (u : State) (h : u.reply = none) : u.choiceMade.reply = none := by
    unfold State.choiceMade
    split <;> exact h
  refine OnlyRises.trans ((made { s with reply := none }).trans ?_) (OnlyRises.resetRises _)
  have two (n : Nat) : arrange n [ResetPart.channelUnit, .otherBlocks] = [.channelUnit, .otherBlocks] ∨
      arrange n [ResetPart.channelUnit, .otherBlocks] = [.otherBlocks, .channelUnit] := by
    have := arrange_perm n [ResetPart.channelUnit, .otherBlocks]
    generalize arrange n [ResetPart.channelUnit, .otherBlocks] = l at this
    match l, this.length_eq with
    | [a, b], _ => revert this; cases a <;> cases b <;> decide
  show OnlyRises _ ((arrange (State.nextChoice { s with reply := none })
    [ResetPart.channelUnit, .otherBlocks]).foldl (fun t a => resetPart a t) _)
  obtain e | e := two (State.nextChoice { s with reply := none })
  · rw [e]
    exact othersWarmReset_afterChannels _ (bare _ rfl)
  · rw [e]
    exact channelsWarmReset_afterOthers _ (bare _ rfl)

end Sys2Proof.Machine
end

