-- ==== Sys2Proof/Tests/Slice0.lean ====
section
/-! SUPPORT. Small tests of one step each, with expected figures from the worked cases of the manual or by hand from
its rules, and for every statement with hypotheses a state and operands that meet them. -/

open Sys2Proof Sys2Proof.Machine

namespace Sys2Proof.Tests

set_option Elab.async false

/-! ### States and commands to build on -/

/-- The cold values with open choices already made, so that no free value is read. -/
def base : State := { State.coldBase with choices := [0, 0, 0, 0, 0, 0, 0, 0] }

/-- The state after a command, or the state itself should it stop. -/
def after (c : Instr) (s : State) : State :=
  match exec c s with
  | .next t => t
  | _ => s

def req (claimed : Octet) (index : Half) (field : Octet) (value : Word) : ReqArgs :=
  { claimed, tag := 7, index, field, value }

/-- SERVICE_KEY is on. -/
def keyed (s : State) : State := { s with lines := { s.lines with serviceKey := true } }

def operating (s : State) : State :=
  { s with sup := { s.sup with nacelle := .operating }, lines := { s.lines with stopOut := false } }

/-- The tower port before the cell at `pos` of a forwarded round with last slot 20. -/
def forwardingAt (pos : Nat) (s : State) : State :=
  { s with ring := { s.ring with port := some { nextPos := pos, last := 20, forwarded := true, startedAt := 0 } } }

def roundAt (pos last : Nat) : RoundOut :=
  { number := 5, originator := .tower, last, openedAt := 0, headReturned := true, nextPos := pos }

/-- Node-in before the cell at `pos` of the round out. -/
def returningAt (pos last : Nat) (s : State) : State :=
  { s with ring := { s.ring with roundOut := some (roundAt pos last) } }

def yawIn (m : YawMode) (s : State) : State := putYaw { s.yaw with mode := m } s

def chan (ch : Fin 128) (c : Channel) (s : State) : State := s.setChannel ch c

/-- A CONFIGURED channel that is LIVE at `v`. -/
def liveAt (v : Int) : Channel := { Channel.cold with configured := true, state := .live, value := v }

def withRing (r : Ring) (s : State) : State := { s with ring := r }

/-! ### Well-formed terms: for each check a term it refuses -/

theorem test_wellformed_claim_missing : WellFormed.command (.start (req 0 0 0 0)) = false := by decide
theorem test_wellformed_claim_given : WellFormed.command (.start (req 1 0 0 0)) = true := by decide
theorem test_wellformed_write_of_own_table : WellFormed.command (.write 2 (req 2 0 0 1)) = false := by decide
theorem test_wellformed_write_of_own_field : WellFormed.command (.write 8 (req 2 0 0 1)) = false := by decide
theorem test_wellformed_write_of_plain_field : WellFormed.command (.write 8 (req 2 0 2 1)) = true := by decide
theorem test_wellformed_row_names_its_field : WellFormed.command (.twistWrite (req 2 0 1 0)) = false := by decide
theorem test_wellformed_cause_enable_field : WellFormed.command (.causeEnableWrite (req 1 0 1 0)) = false := by
  decide
theorem test_wellformed_format_failure_kind :
    WellFormed.command (.formatFailure (writeCell Kind.mreqB 1 2 0 1)) = false := by decide +kernel
theorem test_wellformed_format_failure_check :
    WellFormed.command (.formatFailure { writeCell Kind.mreqA 1 2 0 1 with check := 0 }) = false := by decide +kernel
theorem test_wellformed_format_failure : WellFormed.command (.formatFailure (writeCell Kind.mreqA 1 2 0 1)) = true := by
  decide +kernel

/-! ### Worked figures of the manual -/

/-- 01 R1: the IDLE cell of slot 9 ends in 0x66, and that of slot 0 is eight zero octets. -/
theorem test_check_octet_of_idle : (idleCell 9).check = 0x66 ∧ (idleCell 0).check = 0 := by decide +kernel

/-- 02 worked cases: raw 2,350, 100 and 65,535 with offset 400 and gain 1,229; then the halves. -/
theorem test_scaling_worked_cases :
    let c := { Channel.cold with offset := 400, gain := 1229 }
    let h := { Channel.cold with offset := 400, gain := 2048 }
    scaled c 2350 = 585 ∧ scaled c 100 = -90 ∧ scaled c 65535 = 19544 ∧ scaled h 401 = 1 ∧ scaled h 399 = -1 := by
  decide

/-- The COOLANT curve of 03. -/
def coolant : Curve :=
  { count := 3
    points := #v[⟨350, 256⟩, ⟨400, 205⟩, ⟨450, 0⟩, ⟨0, 0⟩, ⟨0, 0⟩, ⟨0, 0⟩, ⟨0, 0⟩, ⟨0, 0⟩] }

/-- The STACK curve of 03. -/
def stack : Curve :=
  { count := 3
    points := #v[⟨600, 256⟩, ⟨700, 128⟩, ⟨800, 0⟩, ⟨0, 0⟩, ⟨0, 0⟩, ⟨0, 0⟩, ⟨0, 0⟩, ⟨0, 0⟩] }

/-- The MISALIGN curve of 03. -/
def misalign : Curve :=
  { count := 4
    points := #v[⟨0, 256⟩, ⟨150, 256⟩, ⟨450, 128⟩, ⟨900, 0⟩, ⟨0, 0⟩, ⟨0, 0⟩, ⟨0, 0⟩, ⟨0, 0⟩] }

/-- 03 worked cases. -/
theorem test_curve_worked_cases :
    evalCurve coolant 300 = some 256 ∧ evalCurve coolant 380 = some 225 ∧ evalCurve coolant 430 = some 82 ∧
      evalCurve coolant 431 = some 77 ∧ evalCurve coolant 520 = some 0 ∧ evalCurve stack 640 = some 204 ∧
      evalCurve misalign 300 = some 192 ∧ evalCurve misalign 204 = some 232 := by decide

/-- 05 worked case: sections 2 and 3. -/
theorem test_capability_worked_case :
    let x := { Sect.cold with present := true, state := .online, rating := 2700, thermal := 204 }
    capabilityOf x 256 = 2151 ∧ capabilityOf x 128 = 1075 := by decide

/-- 07 worked sequence: the steps across north, and one past max_step. -/
theorem test_heading_steps : headingStep 3598 3590 = 8 ∧ headingStep 6 3598 = 8 ∧ headingStep 140 6 = 134 := by
  decide

/-- 08 worked cases of the dew point. -/
theorem test_dew_points : dewPoint 220 850 = 190 ∧ dewPoint 220 943 = 209 ∧ dewPoint 235 960 = 227 := by decide

/-- 07 worked case: means truncate toward zero. -/
theorem test_mean_truncates : windowMean [some 205, none, some 204] = 204 ∧ windowMean [some (-205), some (-204)] = -204 := by
  decide

/-- A section of the dispatch worked case. -/
def sectWith (cap : Nat) (st : SectState) : Sect :=
  { Sect.cold with present := true, state := st, rating := 2700, rampStep := 50, capability := cap }

/-- The state of the worked case of 06 before its close. -/
def dispatchCase : State :=
  operating { base with
    power := { Power.cold with rating := 15000, rEff := 11000, issued := #v[2100, 2100, 2100, 2100, 1700, 0] }
    cool := { Cool.cold with factor := 225 }
    yaw := { Yaw.cold with factor := 256 }
    sup := { base.sup with mode := { Mode.cold with runEnable := true } }
    sects := #v[sectWith 2700 .online, sectWith 2700 .online, sectWith 2700 .online,
      sectWith 2700 .online, sectWith 2151 .online, sectWith 0 .isolated] }

/-- 06 worked case: L 11,000 by the request, the deficit of 2 to section 4 and then section 0, the references
climb by ramp_step, and the isolated section stays at 0. -/
theorem test_dispatch_worked_case :
    let p := (dispatchAtClose dispatchCase).power
    p.ceiling = 11000 ∧ p.term = .request ∧ p.tCool = 13183 ∧ p.capSum = 12951 ∧
      p.shares = #v[2294, 2293, 2293, 2293, 1827, 0] ∧ p.issued = #v[2150, 2150, 2150, 2150, 1750, 0] := by
  decide +kernel

/-! ### One step of a command -/

/-- 01 R4, R6: the head is forwarded and the port counts on from it. -/
theorem test_towerHead_forwarded :
    let t := after (.towerHead (headCell .tower 5 20) 300) base
    t.ring.nodeOut = [headCell .tower 5 20] ∧ t.ring.lastHeadOut = some 5 ∧ t.ring.towerTimer = 300 := by
  decide +kernel

/-- 01 R5: an interval of 3,000 µs is taken as 2,000. -/
theorem test_towerHead_estimate_clamped :
    let s : State := { base with ring := { base.ring with lastHead := some { time := 0, number := 4, last := 20 } } }
    (after (.towerHead (headCell .tower 5 20) 3000) s).ring.estimate = some 2000 := by decide +kernel

/-- 01 R7: IDLE replaces the setpoint, and R_eff is the payload at most 65,535 (R90). -/
theorem test_setpointArrival :
    let t := after (.setpointArrival (writeCell Kind.setpoint 0 1 70000 0) 10) (forwardingAt 1 base)
    t.power.rEff = 65535 ∧ t.ring.nodeOut = [idleCell 1] := by decide +kernel

/-- 01 R8: READ of section_blind in slots 2 and 3. -/
theorem test_downstreamCell_request :
    let a := writeCell Kind.mreqA 1 2 0x09000007 1
    let s := after (.downstreamCell (writeCell Kind.mreqB 0 3 0 3) 11) (after (.downstreamCell a 10) (forwardingAt 2 base))
    (s.reply.map fun x => (x.status, x.value, x.tag)) = some (.ok, 128, 7) := by decide +kernel

/-- 01 R10, 02 R25: a code of 500 at gain 4,096 is 500. -/
theorem test_nodeSlotArrival_sample :
    let s := chan 8 { Channel.cold with configured := true, state := .stale } { base with
      windows := base.windows.set 0 { Window.cold with enable := true, base := 32, size := 8, firstChannel := 8 } }
    let t := after (.nodeSlotArrival (writeCell Kind.sample 0 32 500 1)) (returningAt 32 40 s)
    t.channels[8].state = .live ∧ t.channels[8].value = 500 := by decide +kernel

/-- 02 worked round: slots 34 and 35 join to 4,660, fed to channel 61. -/
theorem test_nodeSlotArrival_narrow_pair :
    let s := chan 61 { Channel.cold with configured := true, state := .live } { base with
      windows := (base.windows.set 3
        { Window.cold with enable := true, base := 32, size := 8, firstChannel := 60, width := .narrow }) }
    let t := after (.nodeSlotArrival (writeCell Kind.sample 0 35 0x12 1))
      (after (.nodeSlotArrival (writeCell Kind.sample 0 34 0x34 1)) (returningAt 34 38 s))
    t.channels[61].value = 4660 ∧ t.lowHalf = none := by decide +kernel

/-- 01 R11: with neither reply nor record, slots 4 and 6 carry IDLE. -/
theorem test_reservedSlotWrite_idle :
    (after (.reservedSlotWrite (idleCell 4)) (returningAt 4 20 base)).ring.towerOut = [idleCell 4] ∧
      (after (.reservedSlotWrite (idleCell 6)) (returningAt 6 20 base)).ring.towerOut = [idleCell 6] := by
  decide +kernel

/-- 01 R14: the third lapse in a row begins the break and stops the nacelle. -/
theorem test_roundLapse_third :
    let s := returningAt 9 20 (operating { base with ring := { base.ring with lapses := 2 } })
    let t := after (.roundLapse 500) s
    t.ring.broken = true ∧ t.sup.nacelle = .stopped ∧ t.sup.reason = .cause 1 ∧ t.lines.stopOut = true := by
  decide +kernel

/-- 01 R16: the island round has last slot 255 when no head was ever accepted: 256 cells. -/
theorem test_towerLoss_first_island_round :
    let t := after (.towerLoss 2000) base
    t.ring.mode = .island ∧ t.ring.nodeOut.length = 256 ∧ t.ring.islandDue = 2250 := by decide +kernel

/-- 06 worked sequence: the loss with its first decay. -/
theorem test_setpointLoss :
    let t := after .setpointLoss { base with power := { Power.cold with quiet := 400, rEff := 11000 } }
    t.power.loss = true ∧ t.power.rEff = 10998 ∧ t.reports.queue.map FaultRecord.value = [some 11000] := by
  decide +kernel

/-- 07 R127: an unwind from a positive twist turns CCW. -/
theorem test_idleConfirm :
    let t := after .idleConfirm { base with yaw := { Yaw.cold with mode := .unwindWait, idleCount := 4000, twist := 7350 } }
    t.yaw.mode = .unwinding ∧ t.yaw.turn = .ccw ∧ t.lines.brakeHold = false := by decide +kernel

/-- 07 R122: at the end of a stall window, an advance of 4 is too little and one of 5 enough. -/
theorem test_yawStall_advance :
    let s (z : Int) : State := { base with yaw := { Yaw.cold with mode := .slewing, stallCount := 8000, twist := z } }
    (after .yawStall (s 4)).yaw.mode = .stopping ∧ (after .yawStall (s 4)).yaw.endMark = true ∧
      (after .yawStall (s 5)).yaw.mode = .slewing := by decide +kernel

/-- The state of the worked sequence of 08 before close f: pumps 1 and 2 RUNNING, pump 0 OFF. -/
def pumpCase : State :=
  { base with
    pumps := #v[{ Pump.cold with present := true, runMinutes := 1210 },
      { Pump.cold with present := true, runMinutes := 980, state := .running, commanded := true, lowCount := 2000 },
      { Pump.cold with present := true, runMinutes := 1105, state := .running, commanded := true }]
    cool := { Cool.cold with required := 2, order := [1, 2, 0], coolantFactor := 225 } }

/-- 08 worked sequence, close f: pump 1 fails, the list is [2, 0], pump 0 starts, and F_c is 102. -/
theorem test_pumpFlowFail_worked_sequence :
    let t := after (.pumpFlowFail 1) pumpCase
    t.cool.order = [2, 0] ∧ t.pumps[0].state = .starting ∧ t.pumps[1].state = .failed ∧
      t.pumps[2].state = .running ∧ t.cool.factor = 102 ∧
      t.reports.queue.map (fun x => (x.cause, x.subject, x.value)) =
        [(64, .pump 1, some 1), (65, .none, some 2)] := by decide +kernel

/-- R136, R137 by hand: n_req falls to 1, so pump 1 goes OFF; pump 0 fails its start at the same close, and pump 1
enters STARTING, first judged at the next close. -/
theorem test_pumps_at_close_judge_a_new_start_at_the_next :
    let t := pumpsAtClose (operating { base with
      curves := base.curves.set CurveNo.pumpDemand
        { count := 2, points := (Curve.cold.points.set 0 { x := 0, y := 1 }).set 1 { x := 10, y := 1 } }
      cool := { base.cool with required := 2, order := [0, 1] }
      pumps := #v[{ Pump.cold with present := true, state := .starting, commanded := true, startCount := 7999 },
        { Pump.cold with present := true, state := .starting, commanded := true, startCount := 5 }, Pump.cold] })
    t.cool.order = [1] ∧ t.pumps[0].state = .failed ∧ t.pumps[1].state = .starting ∧
      t.pumps[1].startCount = 0 := by decide +kernel

/-- 08 worked sequence: the repaired pump 1 joins behind pump 2 and starts. -/
theorem test_pumpStateWrite_repaired :
    let s := keyed { pumpCase with
      pumps := #v[{ Pump.cold with present := true, state := .failed },
        { Pump.cold with present := true, runMinutes := 980, state := .failed },
        { Pump.cold with present := true, runMinutes := 1105, state := .running, commanded := true }]
      cool := { pumpCase.cool with order := [2] } }
    let t := after (.pumpStateWrite (req 2 1 3 0)) s
    t.cool.order = [2, 1] ∧ t.pumps[1].state = .starting ∧ t.pumps[0].state = .failed := by decide +kernel

/-- 10 worked sequence: ESTOP_IN stops production with its own reason, and ONLINE sections are held. -/
theorem test_estopAsserted :
    let s := operating { base with sects := base.sects.set 0 { Sect.cold with present := true, state := .online } }
    let t := after .estopAsserted s
    t.sup.reason = .cause 6 ∧ t.lines.stopOut = true ∧ t.sects[0].state = .held := by decide +kernel

/-- The reply's status, value and PARTIAL bit. -/
def answer (c : Instr) (s : State) : Option (Status × Word × Bool) :=
  (after c s).reply.map fun x => (x.status, x.value, x.part)

/-- 11 worked sequence: gain in OPERATING, claimed SERVICE with the key off. -/
theorem test_channelConfigWrite_in_operating :
    answer (.channelConfigWrite false (req 2 12 3 4096)) (operating base) = some (.refusedState, 4096, false) := by
  decide +kernel

/-- 11 worked sequence: the mode record at OPERATOR, cooling_manual asked for and left. -/
theorem test_modeWrite_partial :
    answer (.modeWrite (req 2 0 0 0xB)) (operating base) = some (.ok, 3, true) := by decide +kernel

/-- 11 worked sequence: SECTION_RELEASE without the dry permissive, and of section 7. -/
theorem test_sectionRelease_refused :
    let s := operating { base with sects := base.sects.set 2 { Sect.cold with present := true, state := .held } }
    answer (.sectionRelease (req 1 2 0 0)) s = some (.refusedState, 3, false) ∧
      answer (.sectionRelease (req 1 7 0 0)) s = some (.refusedIndex, 0, false) := by decide +kernel

/-- 11 worked sequence: plan entry 3 on slot 35 inside window 4, with the key off and on. -/
theorem test_commandPlanWrite_conflict :
    let s : State := { base with
      windows := base.windows.set 4 { Window.cold with enable := true, base := 32, size := 8 }
      plan := base.plan.set 3 { PlanEntry.cold with slot := 35 } }
    answer (.commandPlanWrite (req 2 3 0 1)) s = some (.refusedAuthority, 1, false) ∧
      answer (.commandPlanWrite (req 2 3 0 1)) (keyed s) = some (.refusedConflict, 1, false) := by decide +kernel

/-- 11 worked sequence: the abscissa 40,000 is clamped to 32,767 and then out of order. -/
theorem test_write_curve_abscissa :
    answer (.write 6 (req 2 1 2 40000)) (keyed { base with curves := base.curves.set 1 coolant }) =
      some (.refusedConflict, 40000, false) := by decide +kernel

/-- 10 worked sequence: START is refused by check 6 while a NACELLE_STOP limit is in TRIP. -/
theorem test_start_refused_by_trip :
    let s : State := { base with
      power := { Power.cold with rating := 15000 }, curves := Vector.replicate 5 coolant
      limits := base.limits.set 40 { Limit.cold with enable := true, action := .nacelleStop, level := .trip } }
    answer (.start (req 1 0 0 0)) s = some (.refusedState, 6, false) := by decide +kernel

/-- Limit 12 of the worked sequence of 04. -/
def limit12 : Limit :=
  { Limit.cold with
    enable := true, channel := 22, warn := 700, trip := 750, hysteresis := 30, persistence := 3
    action := .derateSection, subject := 2, actionValue := 128, warnCause := some 100, tripCause := 101 }

/-- 04 worked sequence, updates 8 and 9 of limit 12: TRIP on the third value, and 740 holds it. -/
theorem test_limit_worked_sequence :
    let s : State := { base with limits := base.limits.set 12 { limit12 with target := .trip, counter := 2 } }
    let t := evaluateLimit 12 758 s
    t.limits[12].level = .trip ∧ t.limits[12].counter = 0 ∧ derateDemand t 2 = 128 ∧ t.causes[101].pending = true ∧
      t.causes[100].pending = false ∧ (evaluateLimit 12 740 t).limits[12].level = .trip := by decide +kernel

/-- 09 worked sequence: CLEAR of REPORT_OVERFLOW with records queued rises again; with the queue empty the flag goes
OFF. -/
theorem test_clear_of_overflow :
    let s (l : List FaultRecord) : State := { base with
      reports := { queue := l, overflow := true, delivering := false }
      causes := base.causes.set 80 { Cause.cold with pending := true } }
    let full := after (.clear 14 (req 1 5 0 1)) (s [FaultRecord.coldTwist])
    let drained := after (.clear 14 (req 1 5 0 1)) (s [])
    full.causes[80].pending = true ∧ full.reports.queue.length = 2 ∧ full.reports.overflow = true ∧
      drained.causes[80].pending = false ∧ drained.reports.overflow = false := by decide +kernel

/-- 10 R170: a forced value of 40,000 is used as 32,767. -/
theorem test_injectValue_clamped :
    let s := chan 9 { Channel.cold with configured := true, state := .stale } (keyed { base with
      sup := { base.sup with nacelle := .test } })
    answer (.injectValue (req 2 9 0 40000)) s = some (.adjusted, 32767, false) ∧
      (after (.injectValue (req 2 9 0 40000)) s).channels[9].value = 32767 := by decide +kernel

/-- 07 R112: a write of twist to 1,080° in production stops it with TWIST_HARD. -/
theorem test_twistWrite_hard :
    let t := after (.twistWrite (req 2 0 0 10800)) (keyed (operating base))
    t.yaw.twist = 10800 ∧ t.sup.reason = .cause 53 ∧ t.causes[53].pending = true := by decide +kernel

/-- 07 R128: a jog of 0 rounds is used as 1, CCW by index 1. -/
theorem test_yawJog_rounds_clamped :
    let s := chan 2 (liveAt 90) (keyed (operating { base with
      yawCfg := { YawSettings.cold with heading := 2 }
      yaw := { Yaw.cold with mode := .parked, twistKnown := true } }))
    answer (.yawJog (req 2 1 0 0)) s = some (.adjusted, 1, false) ∧
      (after (.yawJog (req 2 1 0 0)) s).yaw.turn = .ccw := by decide +kernel

/-- 10 R171, 09 R164: after RESTART with one CONFIGURED channel, COOLING_BLIND is pending and CHANNEL_STALE too. -/
theorem test_restart_rises :
    let t := after (.restart (req 2 0 0 0)) (keyed (chan 5 (liveAt 3) base))
    t.channels[5].state = .stale ∧ t.causes[66].pending = true ∧ t.causes[16].pending = true ∧
      t.causes[56].pending = true := by decide +kernel

/-- 07 R112 by hand: a CW slew carried from −60° to +60° past a limit of 60° stops to end in HELD, and nothing rises. -/
theorem test_hard_range_to_hard_range_stops :
    let s : State := { base with
      yawCfg := { YawSettings.cold with twistHard := 600 }
      yaw := { Yaw.cold with mode := .slewing, phase := .slew, twist := -600 } }
    let t := advanceTwist 1200 s
    t.yaw.twist = 600 ∧ t.yaw.mode = .stopping ∧ t.yaw.endMark = true ∧ t.causes[53].pending = false := by
  decide +kernel

/-- 02 R36, R40 by hand: a warm reset hands out the loss of a LIVE channel, here T_in of channel 15. -/
theorem test_warm_reset_hands_out_losses :
    let s := chan 15 (liveAt 380) { base with
      coolCfg := { CoolSettings.cold with tin := 15 }
      cool := { Cool.cold with coolantFactor := 225, blindMark := false } }
    let t := channelsWarmReset s
    t.channels[15].state = .stale ∧ t.cool.coolantFactor = 128 ∧ t.cool.blindMark = true ∧
      t.causes[66].pending = true := by decide +kernel

/-- The step with an empty queue idles, and the reset state's two records are those of 56 and 66. -/
theorem test_reset_state :
    step State.reset = .next State.reset ∧
      State.reset.reports.queue.Perm [FaultRecord.coldTwist, FaultRecord.coldCooling] :=
  ⟨rfl, arrange_perm _ _⟩

/-- No word spells a command. -/
theorem test_no_word_spells_a_command (nbits w : Nat) : decodeTableWord nbits w = none := rfl

/-! ### Statements with hypotheses: states and operands that meet them -/

/-- A reached authority, from the claim and the key. -/
theorem reached {l : Authority} {r : ReqArgs} {s : State} (a : Authority) (h1 : s.ring.mode = .following)
    (h2 : claimedAuthority r.claimed = some a)
    (h3 : (effectiveAuthority s.lines.serviceKey a).reaches l = true) : ReachedAt l r s :=
  ⟨h1, a, h2, h3⟩

theorem reached_operator (index : Half) (field : Octet) (value : Word) (s : State) (h : s.ring.mode = .following)
    (k : s.lines.serviceKey = false) : ReachedAt .operator (req 1 index field value) s :=
  reached .operator h rfl (by rw [k]; rfl)

theorem reached_service (index : Half) (field : Octet) (value : Word) (s : State) (h : s.ring.mode = .following)
    (k : s.lines.serviceKey = true) : ReachedAt .service (req 2 index field value) s :=
  reached .service h rfl (by rw [k]; rfl)

theorem witness_StepTakesFrontCommand : base.pending = [] := rfl

/-- A nacelle in production, with one ONLINE section and a yaw that turns. -/
def running : State :=
  yawIn .slewing (operating { base with sects := base.sects.set 0 { Sect.cold with present := true, state := .online } })

theorem running_safe : Safe running where
  stopLine := rfl
  brakeLine := rfl
  onlineOperating := fun _ _ => rfl
  operatingClear := fun _ => ⟨rfl, rfl⟩
  queueBound := Nat.zero_le _
  windowBound := Nat.zero_le _

/-- The step stops the nacelle out of production. -/
theorem witness_SafeKeptByEveryStep :
    Safe { running with pending := [.estopAsserted] } ∧
      step { running with pending := [.estopAsserted] } = .next (after .estopAsserted running) ∧
      (after .estopAsserted running).sup.nacelle = .stopped :=
  ⟨⟨rfl, rfl, fun _ _ => rfl, fun _ => ⟨rfl, rfl⟩, Nat.zero_le _, Nat.zero_le _⟩, rfl, by decide +kernel⟩

/-- Window 0 spans slots 32 to 39, and an enabled plan entry names slot 40, the first past it. -/
def planned : State :=
  keyed { base with
    windows := base.windows.set 0 { Window.cold with enable := true, base := 32, size := 8 }
    plan := base.plan.set 0 { PlanEntry.cold with enable := true, slot := 40 } }

theorem planned_apart : PlanApart planned := by
  constructor
  · decide +kernel
  · decide +kernel

theorem witness_PlanApartKeptByEveryStep :
    PlanApart { planned with pending := [.commandPlanWrite (req 2 1 0 1)] } ∧
      step { planned with pending := [.commandPlanWrite (req 2 1 0 1)] } =
        .next (after (.commandPlanWrite (req 2 1 0 1)) planned) :=
  ⟨⟨planned_apart.slots, planned_apart.windows⟩, rfl⟩

/-- The least last slot. -/
theorem witness_AcceptedTowerHeadOpensRound :
    base.ring.mode = .following ∧ base.ring.port = none ∧ base.ring.roundOut = none ∧
      cellPasses (headCell .tower 5 9) 0 = true ∧ (headCell .tower 5 9).kind = Kind.head ∧
      (headCell .tower 5 9).attr = 1 ∧ 9 ≤ lastSlot (headCell .tower 5 9) := by decide +kernel

/-- A head that passes with last slot 8, and one that fails its check. -/
theorem witness_RejectedTowerHeadOnlyRaises :
    base.ring.port = none ∧ cellPasses (headCell .tower 5 8) 0 = true ∧ lastSlot (headCell .tower 5 8) = 8 ∧
      cellPasses { headCell .tower 5 9 with check := 0 } 0 = false := by decide +kernel

/-- The ring in `m` with a head at time 0. -/
def away (m : RingMode) : State :=
  { base with ring := { base.ring with
      mode := m, rejoin := 3, lastHead := some { time := 0, number := 4, last := 20 }, towerTimer := 0 } }

/-- The gap at twice the estimate of 250, and one above it. -/
theorem witness_TowerHeadCountsTowardRejoin :
    (away .rejoining).ring.mode ≠ .following ∧ (away .rejoining).ring.port = none ∧
      cellPasses (headCell .tower 5 9) 0 = true ∧ (headCell .tower 5 9).kind = Kind.head ∧
      (headCell .tower 5 9).attr = 1 ∧ 9 ≤ lastSlot (headCell .tower 5 9) ∧
      (away .rejoining).ring.mode = .rejoining ∧ 500 - 0 ≤ 2 * estimateNow (away .rejoining) ∧
      2 * estimateNow (away .rejoining) < 501 - 0 ∧ (away .island).ring.mode = .island ∧
      (away .island).ring.port = none ∧
      (withRing { (away .rejoining).ring with lastHead := none } base).ring.lastHead = none := by decide +kernel

theorem forwarding_at (pos : Nat) : Forwarding (forwardingAt pos base)
    { nextPos := pos, last := 20, forwarded := true, startedAt := 0 } pos 499 :=
  ⟨rfl, rfl, rfl, rfl, show 499 < 0 + 2 * 250 by decide⟩

def setpointOf (kw : Word) : Cell := writeCell Kind.setpoint 0 1 kw 0

theorem witness_SetpointSetsAndLossDecaysRequest :
    Forwarding (forwardingAt 1 base) { nextPos := 1, last := 20, forwarded := true, startedAt := 0 } 1 499 ∧
      cellPasses (setpointOf 70000) 1 = true ∧ (setpointOf 70000).kind = Kind.setpoint ∧
      ({ base with power := { Power.cold with quiet := 400 } } : State).power.loss = false ∧
      ({ base with power := { Power.cold with quiet := 400 } } : State).power.setpointHold ≤ 400 :=
  ⟨forwarding_at 1, by decide +kernel, rfl, rfl, by decide⟩

/-- The other rows of R7: IDLE, a kind that does not belong to slot 1, and a failed check. -/
theorem witness_SetpointSetsAndLossDecaysRequest_otherRows :
    cellPasses (idleCell 1) 1 = true ∧ (idleCell 1).kind = Kind.idle ∧
      cellPasses (writeCell Kind.sample 0 1 0 0) 1 = true ∧ (writeCell Kind.sample 0 1 0 0).kind ≠ Kind.setpoint ∧
      (writeCell Kind.sample 0 1 0 0).kind ≠ Kind.idle ∧ cellPasses { idleCell 1 with check := 0 } 1 = false := by
  decide +kernel

/-- A quiet count below its setting and a loss that stands; and at a close the arrived mark, a loss at a request of 1,
the count reaching its setting, and the count at its end. -/
theorem witness_SetpointSetsAndLossDecaysRequest_close :
    let p : Power := { Power.cold with quiet := 399, rEff := 11000 }
    let closed (p : Power) : Nat × Bool × Nat :=
      let t := (blockClose .power { base with power := p }).power
      (t.quiet, t.loss, t.rEff)
    p.quiet < p.setpointHold ∧ p.setpointHold ≤ p.quiet + 1 ∧
      closed { p with arrived := true } = (399, false, 11000) ∧ closed p = (400, true, 10998) ∧
      closed { p with loss := true, rEff := 1 } = (400, true, 0) ∧
      closed { p with loss := true, quiet := 65535, rEff := 2 } = (65535, true, 0) := by decide +kernel

/-- The first and the last node slot of a round; slot 40 of `planned` is a plan slot named once. -/
theorem witness_DownstreamNodeSlotForwardsOrCommands :
    Forwarding (forwardingAt 9 base) { nextPos := 9, last := 20, forwarded := true, startedAt := 0 } 9 499 ∧
      Forwarding (forwardingAt 20 base) { nextPos := 20, last := 20, forwarded := true, startedAt := 0 } 20 499 ∧
      (∀ k : Fin 16, base.plan[k].enable = true → base.plan[k].slot ≠ 9) ∧
      planned.plan[0].enable = true ∧ planned.plan[0].slot = 40 ∧
      ∀ j : Fin 16, planned.plan[j].enable = true → planned.plan[j].slot = 40 → j = 0 :=
  ⟨forwarding_at 9, forwarding_at 20, by decide +kernel, by decide +kernel, by decide +kernel, by decide +kernel⟩

/-- Value and flags of the COMMAND cell that leaves in slot 20, the only slot of the plan, for an object. -/
def commandOf (object : Fin 12) (s : State) : List (Word × Octet) :=
  let planned : State := { s with plan := base.plan.set 0 { PlanEntry.cold with enable := true, object, slot := 20 } }
  (after (.downstreamCell (idleCell 20) 10) (forwardingAt 20 planned)).ring.nodeOut.map fun c => (c.payload, c.ext)

/-- 05 R85, 07 R117, 08 R147: a section in each state and in TEST, the yaw in a CCW slew with both groups and BRAKING,
a pump commanded and one that is not present, the fans, and the heater. -/
theorem witness_DownstreamNodeSlotForwardsOrCommands_objects :
    let sect (st : SectState) (n : Nacelle) : State := { base with
      sects := base.sects.set 5 (sectWith 2151 st), power := { Power.cold with issued := #v[0, 0, 0, 0, 0, 1750] }
      sup := { base.sup with nacelle := n } }
    let turning (m : YawMode) : State := { base with
      yaw := { Yaw.cold with mode := m, turn := .ccw, phase := .slew, groupB := true } }
    let pump (present : Bool) : State := { base with
      pumps := base.pumps.set 2 { Pump.cold with present, commanded := true }
      cool := { Cool.cold with commanded := 4, heater := present } }
    commandOf 5 (sect .online .operating) = [(1750, 1)] ∧ commandOf 5 (sect .online .test) = [(0, 0)] ∧
      commandOf 5 (sect .isolated .test) = [(0, 2)] ∧ commandOf 5 (sect .held .operating) = [(0, 0)] ∧
      commandOf 6 (turning .unwinding) = [(7, 4)] ∧ commandOf 6 (turning .braking) = [(4, 0)] ∧
      commandOf 6 (turning .held) = [(0, 0)] ∧ commandOf 9 (pump true) = [(1, 0)] ∧
      commandOf 9 (pump false) = [(0, 0)] ∧ commandOf 10 (pump true) = [(4, 0)] ∧
      commandOf 11 (pump true) = [(1, 0)] ∧ commandOf 11 (pump false) = [(0, 0)] := by decide +kernel

def mreqA (op : BitVec 4) : Cell := writeCell Kind.mreqA op 2 0x0E000005 1
def mreqB : Cell := writeCell Kind.mreqB 0 3 0 0

theorem witness_RequestCellsActAsRequestRow :
    Forwarding (forwardingAt 3 base) { nextPos := 3, last := 20, forwarded := true, startedAt := 0 } 3 499 ∧
      cellPasses mreqB 3 = true ∧ mreqB.kind = Kind.mreqB ∧ (mreqA 1).attr = 1 ∧ (mreqA 2).attr = 2 ∧
      (mreqA 3).attr = 3 ∧ (mreqA 5).attr = 5 ∧
      { forwardingAt 3 base with ring := { (forwardingAt 3 base).ring with heldRequest := some (mreqA 1) } }.ring.heldRequest =
        some (mreqA 1) :=
  ⟨forwarding_at 3, by decide +kernel, rfl, rfl, rfl, rfl, rfl, rfl⟩

/-- Slots 2, 4 and 8, the kinds of slot 2, slot 3 with nothing held, and the last command. -/
theorem witness_RequestCellsActAsRequestRow_otherSlots :
    (∀ pos : Nat, Forwarding (forwardingAt pos base)
      { nextPos := pos, last := 20, forwarded := true, startedAt := 0 } pos 499) ∧
      cellPasses (mreqA 4) 2 = true ∧ (mreqA 4).kind = Kind.mreqA ∧ cellPasses (idleCell 2) 2 = true ∧
      (idleCell 2).kind = Kind.idle ∧ cellPasses (writeCell Kind.sample 0 2 0 0) 2 = true ∧
      (writeCell Kind.sample 0 2 0 0).kind ≠ Kind.mreqA ∧ (writeCell Kind.sample 0 2 0 0).kind ≠ Kind.idle ∧
      cellPasses { mreqA 4 with check := 0 } 2 = false ∧ (forwardingAt 3 base).ring.heldRequest = none ∧
      (requestTable (writeCell Kind.mreqA 4 2 0x0D000005 1)).toNat = 12 + 1 :=
  ⟨forwarding_at, by decide +kernel⟩

/-- The MREQ_A cell of a request for index 5 with tag 7. -/
def requestCell (op : BitVec 4) (table claimed : Octet) : Cell :=
  writeCell Kind.mreqA op 2 (table ++ (0x000507 : BitVec 24)) claimed

/-- The reply to it with value 70,000 and field 3 in slot 3. -/
def replyAt (op : BitVec 4) (table claimed : Octet) : Option Reply :=
  let s := forwardingAt 3 base
  (after (.downstreamCell (writeCell Kind.mreqB 0 3 70000 3) 11)
    { s with ring := { s.ring with heldRequest := some (requestCell op table claimed) } }).reply

/-- Operations 0 and 6, claimed authorities 0 and 4, and command numbers 0 and 14. -/
theorem witness_RequestCellsActAsRequestRow_refused :
    let answer (status : Status) (table : Octet) (value : Word) (field : Octet) : Option Reply :=
      some { status, table, index := 5, tag := 7, part := false, value, field }
    ((requestCell 0 9 1).attr.toNat < 1 ∧ 5 < (requestCell 6 9 1).attr.toNat ∧ (requestCell 1 9 0).ext.toNat < 1 ∧
      3 < (requestCell 1 9 4).ext.toNat ∧ (requestTable (requestCell 4 0 1)).toNat < 1 ∧
      13 < (requestTable (requestCell 4 14 3)).toNat) ∧
      replyAt 0 9 1 = answer .refusedFormat 9 0 0 ∧ replyAt 6 9 1 = answer .refusedFormat 9 0 0 ∧
      replyAt 1 9 0 = answer .refusedFormat 9 0 0 ∧ replyAt 4 14 4 = answer .refusedFormat 14 0 0 ∧
      replyAt 4 0 1 = answer .refusedUnknown 0 70000 3 ∧ replyAt 4 14 3 = answer .refusedUnknown 14 70000 3 := by
  decide +kernel

theorem witness_AwaitTimeoutAndFormatFailure :
    (forwardingAt 4 base).ring.port = some { nextPos := 4, last := 20, forwarded := true, startedAt := 0 } ∧
      0 + 2 * estimateNow (forwardingAt 4 base) ≤ 500 ∧ base.ring.mode = .following := by decide +kernel

def awaiting : State :=
  { base with ring := { base.ring with roundOut := some { roundAt 0 20 with headReturned := false } } }

theorem witness_ReturningHeadStartsUpstreamLeg :
    awaiting.ring.roundOut = some { roundAt 0 20 with headReturned := false } ∧
      (cellPasses (headCell .tower 5 20) 0 = true ∧ (headCell .tower 5 20).kind = Kind.head ∧
        (headCell .tower 5 20).attr = 1 ∧ roundNumber (headCell .tower 5 20) = (roundAt 0 20).number) ∧
      roundNumber (headCell .tower 6 20) ≠ (roundAt 0 20).number := by decide +kernel

theorem returning_at (pos last : Nat) : Returning (returningAt pos last base) (roundAt pos last) pos :=
  ⟨rfl, rfl, rfl⟩

def oneRecord : State :=
  { returningAt 6 9 base with reports := { queue := [FaultRecord.coldTwist], overflow := false, delivering := true } }

theorem witness_ReservedSlotsCarryReplyReportStatus :
    (∀ pos : Nat, Returning (returningAt pos 9 base) (roundAt pos 9) pos) ∧ 8 < (roundAt 4 9).last ∧
      (checked 1 (idleCell 6) 6 oneRecord).reports.queue = [FaultRecord.coldTwist] ∧
      oneRecord.ring.mode = .following ∧ oneRecord.sup.mode.reportHold = false ∧
      oneRecord.reports.delivering = true ∧
      (checked 1 (idleCell 6) 6 (returningAt 6 9 base)).reports.queue = [] ∧ base.reports.delivering = false :=
  ⟨fun pos => returning_at pos 9, by decide, by decide +kernel, rfl, rfl, rfl, by decide +kernel, rfl⟩

theorem witness_UpstreamCellsReadByNothingAreForwarded :
    Returning (returningAt 1 9 base) (roundAt 1 9) 1 ∧ Returning (returningAt 3 9 base) (roundAt 3 9) 3 ∧
      Returning (returningAt 31 40 planned) (roundAt 31 40) 31 ∧ planned.lowHalf = none ∧
      (∀ i : Fin 32, planned.windows[i].enable = true →
        ¬ (planned.windows[i].base ≤ 31 ∧ 31 < planned.windows[i].base + planned.windows[i].size)) ∧
      ∀ k : Fin 16, planned.plan[k].enable = true → planned.plan[k].slot ≠ 31 :=
  ⟨returning_at 1 9, returning_at 3 9, ⟨rfl, rfl, rfl⟩, rfl, by decide +kernel, by decide +kernel⟩

/-- A cell of another kind, and a COMMAND cell, in slot 40 of `planned`, which plan entry 0 names. -/
theorem witness_UpstreamCellsReadByNothingAreForwarded_planSlot :
    let c := writeCell Kind.command 0 40 0 0
    let d := writeCell Kind.sample 0 40 500 1
    Returning (returningAt 40 41 planned) (roundAt 40 41) 40 ∧ planned.plan[0].enable = true ∧
      planned.plan[0].slot = 40 ∧ cellPasses d 40 = true ∧ d.kind ≠ Kind.command ∧ c.kind = Kind.command ∧
      cellPasses { d with check := 0 } 40 = false ∧
      (after (.nodeSlotArrival d) (returningAt 40 41 planned)).causes[5].pending = true ∧
      (after (.nodeSlotArrival c) (returningAt 40 41 planned)).causes[5].pending = false :=
  ⟨⟨rfl, rfl, rfl⟩, by decide +kernel⟩

/-- Window 0 feeds channels 8 to 15 from slots 32 to 39; channel 15 is LIVE and read by nothing. -/
def mapped (w : Width) : State :=
  chan 15 (liveAt 3) { base with
    windows := (base.windows.set 0
      { Window.cold with enable := true, base := 32, size := 8, firstChannel := 8, width := w }) }

def sampleCell (pos : Nat) (code : Half) (q : Octet) : Cell :=
  writeCell Kind.sample 0 pos (0#16 ++ code) q

/-- The last slot of the window. -/
theorem witness_WideSampleBecomesChannelValue :
    Returning (returningAt 39 40 (mapped .wide)) (roundAt 39 40) 39 ∧
      ownerOf (returningAt 39 40 (mapped .wide)) 39 = some 0 ∧
      (15 : Fin 128).val = (mapped .wide).windows[0].firstChannel.val + (39 - (mapped .wide).windows[0].base) ∧
      (∀ k : Fin 16, (mapped .wide).plan[k].enable = true → (mapped .wide).plan[k].slot ≠ 39) ∧
      cellPasses (sampleCell 39 500 1) 39 = true ∧ (sampleCell 39 500 1).kind = Kind.sample ∧
      (sampleCell 39 500 1).ext = 1 ∧ (mapped .wide).channels[15].configured = true ∧
      (mapped .wide).channels[15].forced = false ∧ (mapped .wide).channels[15].remapCount = 0 ∧
      readersOf (returningAt 39 40 (mapped .wide)) 15 = [] :=
  ⟨⟨rfl, rfl, rfl⟩, by decide +kernel, by decide +kernel, by decide +kernel, by decide +kernel, rfl, rfl,
    by decide +kernel, by decide +kernel, by decide +kernel, by decide +kernel⟩

/-- Channel 15 with two remap entries that both take the raw code 500, of which the first counts. -/
def remapped (action : RemapAction) : State :=
  let e : RemapEntry := { lo := 500, hi := 500, action, substitute := 40000 }
  chan 15 { liveAt 3 with remapCount := 2, remap := #v[{ e with lo := 501, hi := 600 }, e, e, e] } (mapped .wide)

/-- The entry that matches, of each action, at both ends of its range, and a code one past it; a substitute is not clamped. -/
theorem witness_WideSampleBecomesChannelValue_remap :
    let x := (remapped .substitute).channels[15]
    let matching (raw : Int) (k : Fin 4) : Prop := k.val < x.remapCount ∧ x.remap[k].lo ≤ raw ∧ raw ≤ x.remap[k].hi
    let got (code : Half) (a : RemapAction) : ChanState × Int :=
      let t := after (.nodeSlotArrival (sampleCell 39 code 1)) (returningAt 39 40 (remapped a))
      (t.channels[15].state, t.channels[15].value)
    (matching 500 1 ∧ (∀ j : Fin 4, j < 1 → ¬ matching 500 j) ∧ ∀ j : Fin 4, ¬ matching 499 j) ∧
      (remapped .substitute).channels[15].remap[1].action = .substitute ∧
      (remapped .invalid).channels[15].remap[1].action = .invalid ∧
      readersOf (returningAt 39 40 (remapped .substitute)) 15 = [] ∧
      got 500 .substitute = (.live, 40000) ∧ got 499 .substitute = (.live, 499) ∧ got 500 .invalid = (.invalid, 3) := by
  decide +kernel

/-- `mapped .wide` with one reader of channel 15. -/
def limitReads : State :=
  { mapped .wide with limits := base.limits.set 95 { Limit.cold with enable := true, channel := 15 } }
def heatsinkReads : State := { mapped .wide with sects := base.sects.set 5 { Sect.cold with present := true, heatsink := 15 } }
def statusReads (st : SectState) : State :=
  { mapped .wide with sects := base.sects.set 5 { Sect.cold with present := true, status := 15, state := st } }
def headingReads (y : Yaw) : State :=
  { mapped .wide with yawCfg := { YawSettings.cold with heading := 15, twistHard := 600 }, yaw := y }
def vaneReads (y : Yaw) : State := { mapped .wide with yawCfg := { YawSettings.cold with vane := 15 }, yaw := y }
def coolingReads (c : Cool) : State := { mapped .wide with coolCfg := { CoolSettings.cold with tin := 15 }, cool := c }

/-- Each kind of reader alone on channel 15, and a code at either end of the range that the clamp leaves as it is. -/
theorem witness_WideSampleBecomesChannelValue_readers :
    readersOf limitReads 15 = [.limit 95] ∧ readersOf heatsinkReads 15 = [.heatsink 5] ∧
      readersOf (statusReads .online) 15 = [.status 5] ∧ readersOf (headingReads Yaw.cold) 15 = [.heading] ∧
      readersOf (vaneReads Yaw.cold) 15 = [.vane] ∧ readersOf (coolingReads Cool.cold) 15 = [.cooling] ∧
      (let x := (mapped .wide).channels[15];
        scaled x 32767 = 32767 ∧ max x.clampLow (min 32767 x.clampHigh) = 32767 ∧ scaled x 3 = 3) ∧
      (statusReads .online).sects[5].state = .online ∧ (statusReads .isolated).sects[5].state = .isolated := by
  decide +kernel

/-- A step of max_step and one above it, a step over zero from one hard range into the other, and a vane within
stop_misalign and one above it. -/
theorem witness_WideSampleBecomesChannelValue_yaw :
    let slewing : Yaw := { Yaw.cold with mode := .slewing, anchor := some 0, reanchor := true, twist := -600 }
    (headingReads Yaw.cold).yaw.anchor = none ∧ slewing.anchor = some 0 ∧
      ((50 - 0 + 1800 : Int) % 3600 - 1800).natAbs ≤ (headingReads slewing).yawCfg.maxStep ∧
      (headingReads slewing).yawCfg.maxStep < ((51 - 0 + 1800 : Int) % 3600 - 1800).natAbs ∧
      (headingReads slewing).yawCfg.twistHard ≤ slewing.twist.natAbs ∧
      (headingReads slewing).yawCfg.twistHard ≤ (slewing.twist + ((1200 - 0 + 1800 : Int) % 3600 - 1800)).natAbs ∧
      ¬ (headingReads slewing).yawCfg.twistHard ≤ (slewing.twist + ((1199 - 0 + 1800 : Int) % 3600 - 1800)).natAbs ∧
      slewing.turn = .cw ∧ (10 : Int).natAbs ≤ (vaneReads slewing).yawCfg.stopMisalign ∧
      ¬ (11 : Int).natAbs ≤ (vaneReads slewing).yawCfg.stopMisalign := by decide

/-- 07 R112, R127: a heading step of 1 to the hard limit of 60° in each yaw state, outside production and in it, and
one to unwind_target and to one above it; the last twist before the limit crosses nothing. -/
theorem witness_WideSampleBecomesChannelValue_hardLimit :
    let at_ (m : YawMode) (twist : Int) : State :=
      headingReads { Yaw.cold with mode := m, phase := .slew, anchor := some 0, twist := twist }
    let met (m : YawMode) (twist : Int) : YawMode × Bool :=
      let t := headingUpdate 1 (at_ m twist)
      (t.yaw.mode, t.yaw.endMark)
    (¬ (at_ .slewing 599).yawCfg.twistHard ≤ (599 : Int).natAbs ∧ (at_ .slewing 599).yawCfg.twistHard ≤ (600 : Int).natAbs) ∧
      (met .slewing 599 = (.stopping, true) ∧ met .jogging 599 = (.stopping, true) ∧ met .releasing 599 = (.held, false) ∧
        met .parked 599 = (.held, false) ∧ met .unwindWait 599 = (.held, false) ∧ met .stopping 599 = (.stopping, true) ∧
        met .braking 599 = (.braking, true) ∧ met .held 599 = (.held, false)) ∧
      met .slewing 598 = (.slewing, false) ∧
      (let t := headingUpdate 1 (operating (at_ .slewing 599));
        t.yaw.mode = .held ∧ t.sup.nacelle = .stopped ∧ t.sup.reason = .cause 53 ∧ t.lines.stopOut = true ∧
          t.causes[53].pending = true ∧ t.reports.queue.map FaultRecord.value = [some 60]) ∧
      (let u (twist : Int) : State := { at_ .unwinding twist with yawCfg := { (at_ .unwinding 0).yawCfg with twistHard := 800 } };
        (headingUpdate 1 (u (-721))).yaw.mode = .stopping ∧ (headingUpdate 1 (u (-722))).yaw.mode = .unwinding) := by
  decide +kernel

/-- Every field at an end of its range, with the largest product. -/
theorem witness_ScalingRoundsHalfAwayFromZero :
    let c := { Channel.cold with offset := -32768, gain := -32768 }
    c.offset ≤ 32767 ∧ -32768 ≤ c.offset ∧ -32768 ≤ c.gain ∧ c.gain ≤ 32767 := by decide

theorem witness_NarrowPairJoinsItsHalves :
    ownerOf (mapped .narrow) 39 = some 0 ∧ (mapped .narrow).windows[0].width = .narrow ∧
      (39 - (mapped .narrow).windows[0].base) % 2 = 1 ∧
      (11 : Fin 128).val =
        (mapped .narrow).windows[0].firstChannel.val + (39 - (mapped .narrow).windows[0].base - 1) / 2 := by
  decide +kernel

/-- Slot 38 is the even slot and slot 39 the odd one; a half held for slot 36 is discarded before either, and one held
for slot 38 is not before slot 39; slot 31 belongs to no window. -/
theorem witness_NarrowPairJoinsItsHalves_otherForms :
    let h (slot : Nat) : LowHalf := { slot, ch := 11, octet := 0x34, good := true }
    let held (slot : Nat) : State := { mapped .narrow with lowHalf := some (h slot) }
    let clashes (pos : Nat) (s : State) : Bool := (handOver .wrongKind pos s).causes[5].pending
    let halves (pos : Nat) (s : State) : Bool := (handOver (.sample 0x12 true) pos s).causes[18].pending
    Returning (returningAt 38 40 (mapped .narrow)) (roundAt 38 40) 38 ∧
      (∀ k : Fin 16, (mapped .narrow).plan[k].enable = true → (mapped .narrow).plan[k].slot ≠ 38) ∧
      (mapped .narrow).lowHalf = none ∧ (38 - (mapped .narrow).windows[0].base) % 2 = 0 ∧
      ownerOf (mapped .narrow) 38 = some 0 ∧ ownerOf (mapped .narrow) 31 = none ∧
      (11 : Fin 128).val = (mapped .narrow).windows[0].firstChannel.val + (38 - (mapped .narrow).windows[0].base) / 2 ∧
      (held 36).lowHalf = some (h 36) ∧ (39 ≠ (h 36).slot + 1) ∧
      (handOver (.sample 0x12 true) 38 (mapped .narrow)).lowHalf = some { h 38 with octet := 0x12 } ∧
      (clashes 38 (mapped .narrow) ∧ clashes 39 (mapped .narrow) ∧ clashes 39 (mapped .wide) ∧
        clashes 31 (mapped .narrow) = false) ∧
      halves 38 (held 36) = true ∧ halves 39 (held 36) = true ∧ halves 39 (held 38) = false :=
  ⟨⟨rfl, rfl, rfl⟩, by decide +kernel⟩

theorem witness_BadCodeInvalidatesChannel :
    base.channels[0].configured = false ∧ (mapped .wide).channels[15].configured = true ∧
      (mapped .wide).channels[15].forced = false ∧ (mapped .wide).channels[15].state ≠ .invalid ∧
      (chan 15 { liveAt 3 with forced := true } base).channels[15].forced = true ∧
      (chan 15 { liveAt 3 with state := .invalid } base).channels[15].state = .invalid := by decide +kernel

/-- The states in which a loss at each reader finds more to do, and those in which it finds less. -/
theorem witness_BadCodeInvalidatesChannel_readers :
    (limitReads.channels[15].state = .live ∧ limitReads.limits[95].level ≠ .unbound) ∧
      (statusReads .held).sects[5].state ≠ .online ∧ readersOf (statusReads .held) 15 = [.status 5] ∧
      readersOf (headingReads { Yaw.cold with mode := .jogging }) 15 = [.heading] ∧
      (headingReads Yaw.cold).yaw.mode = .held ∧ readersOf (vaneReads { Yaw.cold with mode := .slewing }) 15 = [.vane] ∧
      (vaneReads Yaw.cold).yaw.mode ≠ .slewing ∧
      (coolingReads { Cool.cold with dry := true, beenDry := true }).cool.dry = true ∧
      (coolingReads Cool.cold).coolCfg.tin = 15 ∧
      readersOf { mapped .wide with coolCfg := { CoolSettings.cold with rh := 15 } } 15 = [.cooling] := by decide +kernel

theorem witness_ReturnedTailClosesRound :
    Returning (returningAt 9 9 base) (roundAt 9 9) (roundAt 9 9).last ∧ 9 ≤ (roundAt 9 9).last ∧
      Returning (returningAt 9 9 (away .rejoining)) (roundAt 9 9) (roundAt 9 9).last ∧
      (returningAt 9 9 (away .rejoining)).ring.mode = .rejoining ∧ ¬ 16 ≤ (away .rejoining).ring.rejoin ∧
      16 ≤ (withRing { (away .rejoining).ring with rejoin := 16 } base).ring.rejoin :=
  ⟨⟨rfl, rfl, rfl⟩, by decide, ⟨rfl, rfl, rfl⟩, rfl, by decide, by decide⟩

/-- A tail in slot 40 of `planned`, a plan slot, of another kind than COMMAND and of that kind. -/
theorem witness_ReturnedTailClosesRound_planSlot :
    let s := returningAt 40 40 planned
    let d := writeCell Kind.sample 0 40 500 1
    Returning s (roundAt 40 40) (roundAt 40 40).last ∧ s.plan[0].enable = true ∧ s.plan[0].slot = (roundAt 40 40).last ∧
      cellPasses d 40 = true ∧ d.kind ≠ Kind.command ∧ (after (.roundClose d) s).causes[5].pending = true ∧
      (after (.roundClose (writeCell Kind.command 0 40 0 0)) s).causes[5].pending = false :=
  ⟨⟨rfl, rfl, rfl⟩, by decide +kernel⟩

/-- The timeout of 2 × 250, and one before it. -/
theorem witness_LapsedRoundCountsAndRaises :
    (returningAt 9 20 base).ring.roundOut = some (roundAt 9 20) ∧
      (returningAt 9 20 (away .rejoining)).ring.roundOut = some (roundAt 9 20) ∧
      (returningAt 9 20 (away .rejoining)).ring.mode = .rejoining ∧
      (roundAt 9 20).openedAt + 2 * estimateNow (returningAt 9 20 base) ≤ 500 ∧
      499 < (roundAt 9 20).openedAt + 2 * estimateNow (returningAt 9 20 base) := by decide +kernel

/-- The third lapse in a row, with which the break begins, and a lapse during a break. -/
theorem witness_LapsedRoundCountsAndRaises_break :
    let s (lapses : Nat) (broken : Bool) : State :=
      returningAt 9 20 { base with ring := { base.ring with lapses, broken } }
    (decide (3 ≤ (s 2 false).ring.lapses + 1) && !(s 2 false).ring.broken) = true ∧
      (decide (3 ≤ (s 1 false).ring.lapses + 1) && !(s 1 false).ring.broken) = false ∧
      (decide (3 ≤ (s 9 true).ring.lapses + 1) && !(s 9 true).ring.broken) = false ∧
      (after (.roundLapse 500) (s 2 false)).causes[1].pending = true ∧
      (after (.roundLapse 500) (s 9 true)).causes[1].pending = false := by decide +kernel

theorem witness_RingBreakStopsNacelle :
    (withRing { base.ring with lapses := 3 } running).ring.broken = false ∧
      3 ≤ (withRing { base.ring with lapses := 3 } running).ring.lapses ∧
      running.sup.nacelle = .operating ∧ running.yaw.mode ≠ .held ∧
      (withRing { base.ring with broken := true, returns := 16 } base).ring.broken = true ∧
      16 ≤ (withRing { base.ring with broken := true, returns := 16 } base).ring.returns := by decide +kernel

/-- The third lapse in a nacelle that never produced, with the yaw in an unwind and with the yaw HELD. -/
theorem witness_RingBreakStopsNacelle_otherStates :
    let s : State := withRing { base.ring with lapses := 3 } base
    (s.ring.broken = false ∧ 3 ≤ s.ring.lapses ∧ s.sup.nacelle ≠ .operating ∧ s.yaw.mode = .held) ∧
      let u := putYaw { Yaw.cold with mode := .unwindWait, unwindMark := true, saved := 192, factor := 0 } s
      u.ring.broken = false ∧ 3 ≤ u.ring.lapses ∧ u.yaw.mode ≠ .held ∧
        (after .ringBreak u).yaw.factor = 192 ∧ (after .ringBreak u).lines.brakeHold = true := by decide +kernel

theorem witness_TowerLossOpensIslandRounds :
    base.ring.roundOut = none ∧ base.ring.mode = .following ∧ base.ring.towerTimer + 8 * estimateNow base ≤ 2000 ∧
      (away .island).ring.roundOut = none ∧ (away .island).ring.mode ≠ .following ∧
      (away .island).ring.islandDue ≤ 0 := by decide +kernel

/-- An island round of `planned` with its pump 2 in slot 40: IDLE in slots 8, 9 and 39, and a COMMAND cell in slot 40. -/
theorem witness_TowerLossOpensIslandRounds_cells :
    let s : State := { planned with
      plan := planned.plan.set 0 { PlanEntry.cold with enable := true, object := 9, slot := 40 }
      pumps := base.pumps.set 2 { Pump.cold with present := true, commanded := true } }
    let out := (after (.towerLoss 2000) s).ring.nodeOut
    s.plan[0].enable = true ∧ s.plan[0].slot = 40 ∧
      (∀ j : Fin 16, s.plan[j].enable = true → s.plan[j].slot = 40 → j = 0) ∧
      (∀ k : Fin 16, s.plan[k].enable = true → s.plan[k].slot ≠ 39) ∧
      (∀ n ∈ [8, 9, 39], out[n]? = some (idleCell n)) ∧ out[40]? = some (writeCell Kind.command 0 40 1 0) := by
  decide +kernel

theorem witness_RejoiningEndsOrTimesOut :
    (away .rejoining).ring.mode = .rejoining ∧
      (away .rejoining).ring.towerTimer + 8 * estimateNow (away .rejoining) ≤ 2000 ∧
      16 ≤ (withRing { (away .rejoining).ring with rejoin := 16 } base).ring.rejoin ∧
      (away .rejoining).ring.roundOut = none ∧
      (away .rejoining).ring.lastHead = some { time := 0, number := 4, last := 20 } := by decide +kernel

theorem witness_QuietChannelGoesStale :
    let c (q : Nat) : Channel := { liveAt 3 with quiet := q }
    (c 40).configured = true ∧ (c 40).forced = false ∧ (c 40).state = .live ∧
      (c 40).staleRounds ≤ (c 40).quiet ∧ (c 39).quiet < (c 39).staleRounds := by decide

/-- At a close a held half is discarded, the channel that reaches stale_rounds becomes STALE, one with a code does not,
and a count stops at 65,535. -/
theorem witness_QuietChannelGoesStale_close :
    let c (q : Nat) : Channel := { liveAt 3 with quiet := q }
    let t := blockClose .channels (chan 7 (c 39) (chan 8 { c 39 with gotCode := true } (chan 9
      { c 65535 with staleRounds := 65535, state := .stale } { base with
        lowHalf := some { slot := 38, ch := 11, octet := 0x34, good := true } })))
    t.lowHalf = none ∧ t.causes[18].pending = true ∧ t.channels[7].state = .stale ∧ t.channels[7].quiet = 40 ∧
      t.channels[8].state = .live ∧ t.channels[8].quiet = 39 ∧ t.channels[8].gotCode = false ∧
      t.channels[9].quiet = 65535 ∧ t.causes[16].pending = true := by decide +kernel

/-- The tick counter at its setting, and windows of each judgement with min_valid 2 once the INVALID vane joins. -/
theorem witness_DecimationTickJudgesWindow :
    let s : State := { base with yaw := { Yaw.cold with tickCount := 400 } }
    s.yaw.mode ≠ .parked ∧ s.yawCfg.yawDecim ≤ s.yaw.tickCount ∧
      2 ≤ ((([some 5, some 7] : List (Option Int)) ++ [none]).filterMap id).length ∧
      (([] : List (Option Int)) ++ [none]).length < 2 ∧
      s.yaw.unwindMark = false ∧ evalCurve misalign 900 ≠ none ∧ evalCurve Curve.cold 900 = none ∧
      ((([some 5] : List (Option Int)) ++ [none]).filterMap id).length < 2 ∧
      2 ≤ (([some 5] : List (Option Int)) ++ [none]).length := by decide

/-- A tick in PARKED with the yaw permitted, a mean of 81 and start_misalign of 80: one below start_ticks, at it, with
the sign changed, with the mean at 79, and with yaw_auto OFF. -/
theorem witness_DecimationTickJudgesWindow_parked :
    let s (auto : Bool) (vane : Int) (count : Nat) (positive : Bool) : State :=
      chan 1 (liveAt vane) (chan 2 (liveAt 90) (operating { base with
        sup := { base.sup with mode := { base.sup.mode with yawAuto := auto } }
        yawCfg := { YawSettings.cold with vane := 1, heading := 2, minValid := 1 }
        yaw := { Yaw.cold with
          mode := .parked, tickCount := 400, twistKnown := true, startCount := count, startPositive := positive } }))
    let got (x : State) : YawMode × Nat × Bool :=
      let t := after .decimationTick x
      (t.yaw.mode, t.yaw.startCount, t.yaw.startPositive)
    ((s true 81 28 true).yaw.mode = .parked ∧ (s true 81 28 true).yawCfg.yawDecim ≤ (s true 81 28 true).yaw.tickCount ∧
      (s true 81 28 true).sup.nacelle = .operating ∧ (s true 81 28 true).ring.broken = false ∧
      (s true 81 28 true).channels[(s true 81 28 true).yawCfg.heading].state = .live) ∧
      base.yaw.tickCount < base.yawCfg.yawDecim ∧
      got (s true 81 28 true) = (.parked, 29, true) ∧ got (s true 81 29 true) = (.releasing, 0, true) ∧
      got (s true (-80) 29 true) = (.parked, 1, false) ∧ got (s true 79 29 true) = (.parked, 0, true) ∧
      got (s false 81 29 true) = (.parked, 0, true) := by decide +kernel

/-- A PARKED yaw, permitted to move, whose start count has reached 30, at a twist. -/
def startDue (twist : Int) : State :=
  chan 2 (liveAt 90) (operating { base with
    yawCfg := { YawSettings.cold with heading := 2 }
    yaw := { Yaw.cold with mode := .parked, startCount := 30, twistKnown := true, twist := twist } })

theorem witness_AutomaticStartTurnsOrUnwinds :
    (startDue 0).yaw.mode = .parked ∧ (startDue 0).yawCfg.startTicks ≤ (startDue 0).yaw.startCount ∧
      ((startDue 0).sup.nacelle = .operating ∧ (startDue 0).ring.broken = false ∧ (startDue 0).yaw.twistKnown = true ∧
        (startDue 0).channels[(startDue 0).yawCfg.heading].state = .live) ∧
      (startDue 0).yaw.startPositive = true ∧ ¬ (startDue 7199).yawCfg.unwindThreshold ≤ (startDue 7199).yaw.twist.natAbs ∧
      0 ≤ (startDue 7200).yaw.twist ∧ (startDue 7200).yawCfg.unwindThreshold ≤ (startDue 7200).yaw.twist.natAbs ∧
      (startDue 7200).causes[54].pending = false ∧
      (raise 54 .none .none none (startDue 7200)).causes[54].pending = true := by decide +kernel

/-- R116 by hand: a start whose count stands at start_ticks is not taken with the heading STALE, in LOADING, STOPPED by
the ring break or by a cause of group 3, during a ring break, or with twist unknown; it is when STOPPED by another. -/
theorem test_automatic_start_needs_permission :
    let s := startDue 0
    let started (t : State) : Bool := decide ((after .automaticStart t).yaw.mode = .releasing)
    let stopped (c : Fin 128) : State := { s with sup := { s.sup with nacelle := .stopped, reason := .cause c } }
    started s = true ∧ started (stopped 6) = true ∧ started (stopped 1) = false ∧ started (stopped 53) = false ∧
      started (chan 2 { liveAt 90 with state := .stale } s) = false ∧
      started { s with sup := { s.sup with nacelle := .loading } } = false ∧
      started { s with ring := { s.ring with broken := true } } = false ∧
      started { s with yaw := { s.yaw with twistKnown := false } } = false ∧
      started { s with yaw := { s.yaw with startCount := 29 } } = false := by decide +kernel

/-- A release at its setting, with the vane on channel 1. -/
def releasing (twist : Int) (c : Channel) : State :=
  chan 1 c { yawIn .releasing base with
    yawCfg := { YawSettings.cold with vane := 1 }
    yaw := { Yaw.cold with mode := .releasing, releaseCount := 2000, twist := twist } }

theorem witness_ReleaseEndEntersSlew :
    (releasing 0 (liveAt 5)).yaw.mode = .releasing ∧ (releasing 0 (liveAt 5)).yawCfg.releaseMode = .fixed ∧
      (releasing 0 (liveAt 5)).yawCfg.releaseRounds ≤ (releasing 0 (liveAt 5)).yaw.releaseCount ∧
      (releasing 0 (liveAt 5)).channels[(releasing 0 (liveAt 5)).yawCfg.vane].state = .live ∧
      (releasing 0 Channel.cold).channels[(releasing 0 Channel.cold).yawCfg.vane].state ≠ .live ∧
      ((releasing 10800 (liveAt 5)).yawCfg.twistHard ≤ (releasing 10800 (liveAt 5)).yaw.twist.natAbs ∧
        (releasing 10800 (liveAt 5)).yaw.turn = .cw) ∧
      ¬ (releasing 10799 (liveAt 5)).yawCfg.twistHard ≤ (releasing 10799 (liveAt 5)).yaw.twist.natAbs ∧
      ({ base with yaw := { Yaw.cold with mode := .slewing, staggerCount := 800 } } : State).yawCfg.stagger ≤ 800 := by
  decide +kernel

/-- A movement in its RELEASE phase whose release has lasted `n` closes, with the vane on channel 1 and an open brake
on channel 3. -/
def moving (m : YawMode) (twist : Int) (n : Nat) : State :=
  chan 3 (liveAt 1) { base with
    yawCfg := { YawSettings.cold with vane := 1, brake := 3, releaseMode := .feedback }
    yaw := { Yaw.cold with mode := m, phase := .release, releaseCount := n, twist := twist } }

/-- The feedback form at release_min in UNWINDING at its target and one above it, and in JOGGING; and a slew of each
with stagger at its setting. -/
theorem witness_ReleaseEndEntersSlew_movements :
    let s (m : YawMode) (z : Int) := moving m z 400
    ((s .unwinding 720).yaw.mode = .unwinding ∧ (s .unwinding 720).yaw.phase = .release ∧
        (s .unwinding 720).yawCfg.releaseMode = .feedback ∧ (s .unwinding 720).yawCfg.releaseMin ≤ 400 ∧
        (s .unwinding 720).channels[(s .unwinding 720).yawCfg.brake].state = .live ∧
        (s .unwinding 720).channels[(s .unwinding 720).yawCfg.brake].value = 1) ∧
      (720 : Int).natAbs ≤ (s .unwinding 720).yawCfg.unwindTarget ∧
      ¬ (721 : Int).natAbs ≤ (s .unwinding 721).yawCfg.unwindTarget ∧
      ((s .jogging 0).yaw.mode = .jogging ∧ (s .jogging 0).yaw.phase = .release) ∧
      (after .releaseEnd (s .unwinding 720)).yaw.mode = .stopping ∧
      (after .releaseEnd (s .unwinding 721)).yaw.phase = .slew ∧
      (after .releaseEnd (s .jogging 0)).yaw.mode = .jogging ∧
      ∀ m ∈ [YawMode.unwinding, .jogging],
        let u := putYaw { Yaw.cold with mode := m, phase := .slew, staggerCount := 800 } base
        u.yaw.phase = .slew ∧ u.yawCfg.stagger ≤ u.yaw.staggerCount := by decide +kernel

theorem witness_YawFaultsHoldOrStop :
    let s : State := { base with
      yawCfg := { YawSettings.cold with releaseMode := .feedback }
      yaw := { Yaw.cold with mode := .releasing, releaseCount := 8000 } }
    let u (twist : Int) : State := { base with
      yaw := { Yaw.cold with mode := .slewing, stallCount := 8000, slewCount := 480000, twist := twist } }
    (s.yaw.mode = .releasing ∧ s.yaw.unwindMark = false ∧ s.yawCfg.releaseMode = .feedback ∧
      s.yawCfg.releaseMax ≤ s.yaw.releaseCount ∧ s.channels[s.yawCfg.brake].state ≠ .live) ∧
    (u 4).yawCfg.stallWindow ≤ (u 4).yaw.stallCount ∧ (u 4).yaw.twist - (u 4).yaw.stallRef < (u 4).yawCfg.stallMin ∧
      (u 5).yawCfg.stallMin ≤ (u 5).yaw.twist - (u 5).yaw.stallRef ∧
      (u 4).yawCfg.maxSlew ≤ (u 4).yaw.slewCount := by decide +kernel

/-- UNWINDING and JOGGING at release_max with the brake not reported, and at the end of a stall window. -/
theorem witness_YawFaultsHoldOrStop_movements : ∀ m ∈ [YawMode.unwinding, .jogging],
    let s := chan 3 (liveAt 0) (moving m 0 8000)
    let u (z : Int) : State := { base with
      yaw := { Yaw.cold with mode := m, phase := .slew, stallCount := 8000, twist := z } }
    (s.yaw.phase = .release ∧ s.yawCfg.releaseMode = .feedback ∧ s.yawCfg.releaseMax ≤ s.yaw.releaseCount ∧
      s.channels[s.yawCfg.brake].value ≠ 1) ∧
    ((u 4).yaw.phase = .slew ∧ (u 4).yawCfg.stallWindow ≤ (u 4).yaw.stallCount) ∧
    (u 4).yaw.twist - (u 4).yaw.stallRef < (u 4).yawCfg.stallMin ∧
    (u 5).yawCfg.stallMin ≤ (u 5).yaw.twist - (u 5).yaw.stallRef ∧ (u 4).yaw.mode ≠ .slewing := by decide +kernel

theorem witness_YawMovementEnds :
    let at_ (m : YawMode) : State := { base with yaw := { Yaw.cold with
      mode := m, phase := .slew, coastCount := 1200, brakeCount := 2000, idleCount := 4000, waitCount := 240000
      unwindMark := true, slewCount := 7, jogRounds := 7 } }
    (at_ .stopping).yawCfg.coastRounds ≤ (at_ .stopping).yaw.coastCount ∧
      (at_ .braking).yawCfg.brakeRounds ≤ (at_ .braking).yaw.brakeCount ∧
      (at_ .braking).yaw.endMark = false ∧ ({ (at_ .braking).yaw with endMark := true } : Yaw).endMark = true ∧
      (at_ .unwindWait).yawCfg.idleConfirm ≤ (at_ .unwindWait).yaw.idleCount ∧
      3999 < (at_ .unwindWait).yawCfg.idleConfirm ∧
      (at_ .unwindWait).yawCfg.unwindWaitMax ≤ (at_ .unwindWait).yaw.waitCount ∧
      (at_ .jogging).yaw.jogRounds ≤ (at_ .jogging).yaw.slewCount := by decide +kernel

/-- Pump 2 at both of its settings. -/
def pumpAt (st : PumpState) : State :=
  { base with pumps := (base.pumps.set 2
      { Pump.cold with present := true, state := st, startCount := 8000, lowCount := 2000, minuteCount := 240000 }) }

theorem witness_FailedPumpIsReplaced :
    (pumpAt .starting).pumps[2].present = true ∧ (pumpAt .starting).pumps[2].state = .starting ∧
      (pumpAt .starting).coolCfg.pumpStart ≤ (pumpAt .starting).pumps[2].startCount ∧
      (pumpAt .running).pumps[2].state = .running ∧
      (pumpAt .running).coolCfg.pumpPersist ≤ (pumpAt .running).pumps[2].lowCount := by decide +kernel

/-- Pump 2 about to fail again after a write cleared it, with both pump causes pending. -/
def clearedPump : State :=
  { pumpAt .starting with
    pumps := (pumpAt .starting).pumps.set 2 { (pumpAt .starting).pumps[2] with cleared := true }
    causes := (base.causes.set 64 { Cause.cold with pending := true }).set 65 { Cause.cold with pending := true } }

theorem witness_FailedPumpIsReplaced_records :
    clearedPump.causes[64].pending = true ∧ clearedPump.causes[65].pending = true ∧
      clearedPump.causes[64].reportEnable = true ∧ clearedPump.reports.queue.length < 32 ∧
      clearedPump.pumps[2].cleared = true ∧ (pumpAt .starting).pumps[2].cleared = false ∧
      ∀ j : Fin 3, j ≠ 2 → clearedPump.pumps[j].present = true → clearedPump.pumps[j].state ≠ .failed := by
  decide +kernel

/-- After the failure n_req = 1 has no RUNNING pump, and with n_req = 0 none is missing. -/
theorem witness_FailedPumpIsReplaced_settled :
    let s (n : Nat) : State := { pumpAt .running with cool := { Cool.cold with required := n, coolantFactor := 225 } }
    ((after (.pumpFlowFail 2) (s 1)).causes[65].pending = true ∧ (after (.pumpFlowFail 2) (s 0)).causes[65].pending = false) ∧
      (failPump 2 .flow (s 1)).causes[64].pending = true ∧ (s 1).causes[64].pending = false ∧
      (after (.pumpFlowFail 2) (s 1)).cool.factor = 0 := by decide +kernel

/-- 08 R148 by hand: a cleared pump that fails again adds its record though PUMP_FAIL is still pending. -/
theorem test_cleared_pump_fails_again :
    (after (.pumpStartFail 2) clearedPump).reports.queue.map (fun x => (x.cause, x.subject, x.value)) =
      [(64, .pump 2, some 0)] := by decide +kernel

theorem witness_CoolingCountsAct :
    let s (t u d c : Nat) : State := { base with
      cool := { Cool.cold with thermal := t, upCount := u, downCount := d, stepCount := 8000, dryCount := c }
      sup := { base.sup with mode := { Mode.cold with coolingManual := true, manualStage := 2 } } }
    240000 ≤ (pumpAt .running).pumps[2].minuteCount ∧
      ((s 3 4000 0 0).coolCfg.fanPersist ≤ (s 3 4000 0 0).cool.upCount ∧ (s 3 4000 0 0).cool.thermal < 4) ∧
      ((s 3 3999 4000 0).cool.upCount < (s 3 3999 4000 0).coolCfg.fanPersist ∧
        (s 3 3999 4000 0).coolCfg.fanPersist ≤ (s 3 3999 4000 0).cool.downCount) ∧
      ((s 3 0 0 0).coolCfg.fanStep ≤ (s 3 0 0 0).cool.stepCount ∧ (s 3 0 0 0).sup.mode.coolingManual = true ∧
        (s 3 0 0 0).cool.margin = none ∧ (s 3 0 0 0).cool.commanded ≠ (s 3 0 0 0).sup.mode.manualStage) ∧
      (s 0 0 0 240000).cool.dry = false ∧ (s 0 0 0 240000).coolCfg.dryConfirm ≤ (s 0 0 0 240000).cool.dryCount := by
  decide +kernel

/-- T_in on channel 15 at a value and the margin known, with thermal stage 2 and AUTO. -/
def fansAt (tin margin : Int) (count : Nat) : State :=
  chan 15 (liveAt tin) { base with
    coolCfg := { CoolSettings.cold with tin := 15 }
    cool := { Cool.cold with thermal := 2, margin := some margin, stepCount := count } }

/-- T_in at the thresholds of stage 2 and one past each, and absent; the guard one inside both of its bounds and at
each of them; fan_step at its setting and one below; and the commanded stage at the wanted one. -/
theorem witness_CoolingCountsAct_fans :
    (base.channels[base.coolCfg.tin].state ≠ .live ∧ (fansAt 0 0 0).channels[(fansAt 0 0 0).coolCfg.tin].state = .live) ∧
      ((fansAt 411 0 0).cool.thermal = (2 : Fin 4).val ∧ (fansAt 411 0 0).coolCfg.fanUp[(2 : Fin 4)] < 411 ∧
        ¬ (fansAt 410 0 0).coolCfg.fanUp[(2 : Fin 4)] < 410) ∧
      ((fansAt 359 0 0).cool.thermal = (1 : Fin 4).val + 1 ∧ (359 : Int) < (fansAt 359 0 0).coolCfg.fanDown[(1 : Fin 4)] ∧
        ¬ (360 : Int) < (fansAt 360 0 0).coolCfg.fanDown[(1 : Fin 4)]) ∧
      ((449 : Int) < (fansAt 449 39 8000).coolCfg.emergency ∧ (39 : Int) < (fansAt 449 39 8000).coolCfg.guard ∧
        ¬ (450 : Int) < (fansAt 450 39 8000).coolCfg.emergency ∧ ¬ (40 : Int) < (fansAt 449 40 8000).coolCfg.guard) ∧
      (fansAt 449 39 8000).coolCfg.fanStep ≤ 8000 ∧ 7999 < (fansAt 449 39 7999).coolCfg.fanStep ∧
      (after .fanStep (fansAt 449 39 8000)).cool.wanted = 1 ∧ (after .fanStep (fansAt 449 40 8000)).cool.wanted = 4 ∧
      (after .fanStep (fansAt 449 39 8000)).cool.commanded = 1 ∧
      ({ fansAt 449 39 8000 with cool := { Cool.cold with commanded := 1 } } : State).cool.commanded = 1 := by
  decide +kernel

/-- At the cooling unit's close the guard caps a commanded stage of 4 with a margin of 39, the dry count advances
with one of 50 and goes to 0 with one of 49, and stands at 0 while the permissive is true. -/
theorem witness_CoolingCountsAct_close :
    let closed (tin m : Int) (dry : Bool) : Nat × Nat :=
      let s := fansAt tin m 0
      let t := blockClose .cooling { s with cool := { s.cool with commanded := 4, dry, dryCount := 7 } }
      (t.cool.commanded, t.cool.dryCount)
    closed 449 39 false = (1, 0) ∧ closed 450 39 false = (4, 0) ∧ closed 449 40 false = (4, 0) ∧
      closed 449 50 false = (4, 8) ∧ closed 449 49 false = (4, 0) ∧ closed 449 50 true = (4, 0) := by decide +kernel

theorem witness_EstopLineStopsNacelle :
    running.lines.estopIn = false ∧ running.sup.nacelle = .operating ∧ base.lines.estopIn = false ∧
      base.sup.nacelle ≠ .operating ∧
      ({ base with lines := { base.lines with estopIn := true } } : State).lines.estopIn = true := by decide +kernel

/-- The highest rating that the range takes. -/
theorem witness_ServiceKeyCapsAuthority :
    base.ring.mode = .following ∧ (req 3 0 0 30000).claimed = 3 ∧ (req 3 0 0 30000).index = 0 ∧
      (req 3 0 0 30000).field = 0 ∧ base.lines.serviceKey = false ∧ (keyed base).lines.serviceKey = true ∧
      (req 3 0 0 30000).value.toNat ≤ 30000 ∧ (req 2 0 3 256).claimed = 2 ∧ (req 2 0 3 256).value.toNat ≤ 256 ∧
      1 ≤ (req 2 0 1 1).value.toNat ∧ (req 2 0 1 65535).value.toNat ≤ 65535 := by decide

theorem witness_ReadReturnsFieldUnchanged :
    ReachedAt .operator (req 1 2 0 0) base ∧ (tableFields 7 2).length ≤ 3 ∧ 2 < (tableFields 7 2).length ∧
      tableSize 7 ≤ 16 ∧ 15 < tableSize 7 ∧ (tableWords base 7 15)[2]? = some 9 :=
  ⟨reached_operator _ _ _ _ rfl rfl, by decide, by decide, by decide, by decide, by decide +kernel⟩

/-- A LEVEL, an EVENT and an unassigned cause, and the channel whose force bit is the last one of the last word. -/
theorem witness_ReadReturnsFieldUnchanged_tables :
    causeKind 6 = .level ∧ causeKind 5 = .event ∧ causeKind 7 = .unassigned ∧
      (127 : Fin 128).val = 32 * (3 : Fin 4).val + (31 : Fin 32).val ∧
      (tableWords (chan 127 { liveAt 3 with forced := true } base) 16 0)[9]? = some 0x80000000 := by decide +kernel

theorem witness_WriteChecksInOrder :
    base.ring.mode = .following ∧ claimedAuthority (req 2 0 1 0).claimed = some .service ∧ (2 : Octet) ≠ 15 ∧
      (tableFields 2 0)[6]? = none ∧ (tableFields 2 0)[1]? = some (service (.unsigned 9 255) .notOperating) ∧
      (service (.unsigned 9 255) .notOperating).when.allows (operating base) = false ∧
      (service (.unsigned 9 255) .notOperating).when.allows base = true ∧
      (effectiveAuthority false .service).reaches .service = false ∧
      (effectiveAuthority true .service).reaches .service = true ∧ ¬ 32 < tableSize 2 ∧ 31 < tableSize 2 ∧
      (Form.enumerated 2).take 2 = none ∧ (Form.unsigned 9 255).take 8 = some (9, true) ∧
      applyWrite 2 0 1 9 base ≠ none ∧ applyWrite 7 1 2 33 { planned with
        plan := planned.plan.set 1 { PlanEntry.cold with enable := true, object := 1, slot := 41 } } = none := by
  decide +kernel

/-- Writes of a curve's abscissa between its neighbours and at one, of the island period without an estimate and with one. -/
theorem witness_WriteChecksInOrder_curveAndRing :
    let s : State := { base with curves := base.curves.set 1 coolant }
    let moved (z : Int) : Curve := { coolant with points := coolant.points.set 1 { coolant.points[1] with x := z } }
    let rising (z : Int) : Prop :=
      ∀ a b : Fin 8, a < b → b.val < coolant.count → (moved z).points[a].x < (moved z).points[b].x
    (rising 449 ∧ ¬ rising 450) ∧ (applyWrite 6 1 2 449 s).isSome = true ∧ applyWrite 6 1 2 450 s = none ∧
      base.ring.estimate = none ∧ ({ base.ring with estimate := some 250 } : Ring).estimate ≠ none ∧
      ((applyWrite 1 0 0 300 base).map estimateNow) = some 300 := by decide +kernel

/-- Yaw writes: field 22, twist_hard, into the hard range in production and out of it by yaw state; to a value the twist lies inside,
and below unwind_threshold; and field 1, heading_channel. -/
theorem witness_WriteChecksInOrder_yaw :
    let s (m : YawMode) : State := { base with yaw := { Yaw.cold with mode := m, phase := .slew, twist := -8000, anchor := some 5 } }
    let got (m : YawMode) : Option (YawMode × Bool) := (applyWrite 10 0 22 8000 (s m)).map fun t => (t.yaw.mode, t.yaw.endMark)
    let hard (cfg : YawSettings) : Prop := cfg.twistHard ≤ (s .parked).yaw.twist.natAbs
    let sound (c : YawSettings) : Prop := c.unwindTarget < c.unwindThreshold ∧ c.unwindThreshold ≤ c.twistHard ∧ c.releaseMin ≤ c.releaseMax
    (((tableFields 10 0)[22]?.bind fun x => x.form.take 8000) = some (8000, false)) ∧
      (¬ hard base.yawCfg ∧ hard (yawWith base.yawCfg 22 8000) ∧ ¬ hard (yawWith base.yawCfg 22 8001)) ∧
      (sound (yawWith base.yawCfg 22 7200) ∧ ¬ sound (yawWith base.yawCfg 22 7199)) ∧
      got .slewing = some (.stopping, true) ∧ got .unwinding = some (.stopping, true) ∧ got .braking = some (.braking, true) ∧
      got .parked = some (.held, false) ∧
      ((applyWrite 10 0 22 8000 (operating (s .slewing))).map fun t => (t.yaw.mode, t.sup.reason)) = some (.held, .cause 53) ∧
      ((applyWrite 10 0 22 7199 (s .parked)).isNone = true) ∧
      ((applyWrite 10 0 1 3 (s .parked)).map fun t => t.yaw.anchor) = some none := by decide +kernel

/-- Cooling writes with T_in 300, T_cab 220 and RH 850, a margin of 110: the binding of T_in to a channel in use and to one
that is not; cooling_blind with T_in unusable; a pump factor; the guard above the margin; a heater threshold; dry_lost
at the margin and above it; and an order that fails. -/
theorem witness_WriteChecksInOrder_cooling :
    let s : State := chan 15 (liveAt 300) (chan 14 (liveAt 220) (chan 13 (liveAt 850) { base with
      coolCfg := { CoolSettings.cold with tin := 15, tcab := 14, rh := 13, dryMargin := 200 }
      cool := { Cool.cold with commanded := 4, margin := some 110, dry := true, beenDry := true, heater := true } }))
    let got (f : Nat) (z : Int) (s : State) := (applyWrite 12 0 f z s).map fun t => t.cool
    (((tableFields 12 0)[28]?.bind fun x => x.form.take 111) = some (111, false)) ∧
      (got 0 15 s).map (fun k => (k.blindMark, k.fallbackMark, k.margin)) = some (false, true, some 110) ∧
      (got 0 9 s).map (fun k => (k.blindMark, k.margin, k.dry)) = some (true, none, false) ∧
      (got 3 77 s).map (fun k => k.coolantFactor) = some 77 ∧ (got 4 9 s).map (fun k => k.factor) = some 9 ∧
      (got 21 111 s).map (fun k => k.commanded) = some 1 ∧ (got 21 110 s).map (fun k => k.commanded) = some 4 ∧
      (got 24 59 s).map (fun k => k.heater) = some false ∧
      (got 28 110 s).map (fun k => k.dry) = some true ∧ (got 28 111 s).map (fun k => k.dry) = some false ∧
      got 28 200 s = none := by decide +kernel

/-- manual_stage 4 and 5, at both authorities. -/
theorem witness_ModeWriteAppliesByAuthority :
    ReachedAt .service (req 2 0 0 0x40) (keyed base) ∧ ReachedAt .operator (req 1 0 0 0x50) base ∧
      ¬ ReachedAt .service (req 1 0 0 0x50) base :=
  ⟨reached_service _ _ _ _ rfl rfl, reached_operator _ _ _ _ rfl rfl, fun ⟨_, a, h, k⟩ => by
    cases a
    · exact absurd k (by decide)
    · exact absurd h (by decide)
    · exact absurd h (by decide)⟩

theorem witness_SlotMapAndPlanWritesCheckConflicts :
    ReachedAt .service (req 2 31 0 1) planned ∧ planned.sup.nacelle ≠ .operating ∧ (req 2 31 0 1).field = 0 ∧
      (req 2 31 0 1).value.toNat < 2 ∧ (req 2 31 0 1).index.toNat = (31 : Fin 32).val ∧
      (req 2 15 0 1).index.toNat = (15 : Fin 16).val ∧ windowConsistent planned { Window.cold with base := 39 } = true ∧
      windowConsistent planned { Window.cold with base := 40 } = false ∧
      planConsistent planned 15 { PlanEntry.cold with object := 1, slot := 31 } = true ∧
      planConsistent planned 15 { PlanEntry.cold with object := 1, slot := 32 } = false :=
  ⟨reached_service _ _ _ _ rfl rfl, by decide +kernel, by decide, by decide, by decide, by decide, by decide +kernel,
    by decide +kernel, by decide +kernel, by decide +kernel⟩

theorem witness_ChannelConfigWriteMakesStale :
    ReachedAt .service (req 2 127 2 32767) (keyed (chan 127 (liveAt 3) base)) ∧
      (req 2 127 2 32767).index.toNat = (127 : Fin 128).val ∧
      (keyed (chan 127 (liveAt 3) base)).channels[127].configured = true ∧
      (keyed (chan 127 (liveAt 3) base)).sup.nacelle ≠ .operating ∧ (req 2 127 2 32767).value.toInt ≤ 32767 :=
  ⟨reached_service _ _ _ _ rfl rfl, by decide, by decide +kernel, by decide +kernel, by decide⟩

/-- The other fields: gain, the clamp bounds where they meet and cross, OPERATING, and a STALE and a LIVE channel. -/
theorem witness_ChannelConfigWriteMakesStale_otherFields :
    let z (v : Word) : Int := (req 2 127 4 v).value.toInt
    z 0xFFFF8000 ≤ 32767 ∧ -32768 ≤ z 0xFFFF8000 ∧ z 0x7FFF ≤ (liveAt 3).clampHigh ∧
      ({ liveAt 3 with clampHigh := 99 } : Channel).clampHigh < z 100 ∧ ({ liveAt 3 with clampLow := 101 } : Channel).clampLow > z 100 ∧
      (liveAt 3).clampLow ≤ z 0xFFFF8000 ∧ (liveAt 3).state ≠ .stale ∧
      (keyed (operating (chan 127 (liveAt 3) base))).sup.nacelle = .operating ∧
      (keyed (operating (chan 127 (liveAt 3) base))).channels[127].configured = true := by decide +kernel

theorem witness_CurveCountWriteChecksOrder :
    ReachedAt .service (req 2 4 0 9) (keyed base) ∧ (req 2 4 0 9).index.toNat = (4 : Fin 5).val ∧
      (∀ j k : Fin 8, j < k → k.val < 3 → coolant.points[j].x < coolant.points[k].x) ∧
      ¬ coolant.points[2].x < coolant.points[3].x :=
  ⟨reached_service _ _ _ _ rfl rfl, by decide, by decide, by decide⟩

/-- Limit 95 on channel 127. -/
def limited (l : Limit) : State :=
  keyed { base with limits := base.limits.set 95 l }

theorem witness_LimitWriteArmsOrRetunes :
    let l : Limit := { Limit.cold with channel := 127, warn := 700, trip := 750 }
    (req 2 95 0 1).index.toNat = (95 : Fin 96).val ∧ ReachedAt .service (req 2 95 0 1) (limited l) ∧
      ReachedAt .operator (req 1 95 4 700) (limited l) ∧ (limited l).sup.nacelle ≠ .operating ∧
      (limited l).limits[95].enable = false ∧ l.direction = .high ∧ l.warn ≤ l.trip ∧
      ¬ (1 : Int) ≤ ({ l with warn := 1, trip := 0 } : Limit).trip ∧
      (limited l).channels[127].configured = false ∧
      (chan 127 (liveAt 3) (limited l)).channels[127].configured = true ∧
      (limited { l with enable := true }).limits[95].enable = true ∧ l.warn ≤ (req 1 95 4 700).value.toInt :=
  ⟨by decide, reached_service _ _ _ _ rfl rfl, reached .operator rfl rfl rfl, by decide +kernel, by decide +kernel,
    rfl, by decide, by decide, by decide +kernel, by decide +kernel, by decide +kernel, by decide⟩

theorem witness_SectionWritesTakeEffect :
    ReachedAt .service (req 2 5 0 1) (keyed base) ∧ (req 2 5 0 1).index.toNat = (5 : Fin 6).val ∧
      base.sects[5].present = false ∧ base.channels[base.sects[5].heatsink].state ≠ .live ∧
      ({ base with sects := base.sects.set 5 { Sect.cold with present := true } } : State).sects[5].present = true ∧
      (req 2 0 3 256).value.toNat ≤ 256 :=
  ⟨reached_service _ _ _ _ rfl rfl, by decide, by decide +kernel, by decide +kernel, by decide +kernel, by decide⟩

/-- Twist at twist_hard and one below it. -/
theorem witness_TwistWriteSetsTwist :
    ReachedAt .service (req 2 0 0 10800) (keyed base) ∧ base.yaw.mode = .held ∧
      (yawIn .slewing base).yaw.mode ≠ .parked ∧ (yawIn .slewing base).yaw.mode ≠ .held ∧
      base.yawCfg.twistHard ≤ (req 2 0 0 10800).value.toInt.natAbs ∧
      ¬ base.yawCfg.twistHard ≤ (req 2 0 0 10799).value.toInt.natAbs ∧
      ¬ base.yawCfg.twistHard ≤ base.yaw.twist.natAbs :=
  ⟨reached_service _ _ _ _ rfl rfl, rfl, by decide, by decide, by decide, by decide, by decide⟩

theorem witness_PumpWritesRebuildOrder :
    ReachedAt .service (req 2 2 0 1) (keyed (pumpAt .failed)) ∧ (req 2 2 0 1).index.toNat = (2 : Fin 3).val ∧
      (keyed (pumpAt .failed)).sup.nacelle ≠ .operating ∧ (req 2 2 0 1).value.toNat < 2 ∧
      (pumpAt .failed).pumps[2].present = decide ((req 2 2 0 1).value = 1) ∧
      (pumpAt .failed).pumps[2].present ≠ decide ((req 2 2 0 0).value = 1) ∧
      (pumpAt .failed).pumps[2].state = .failed ∧ (pumpAt .off).pumps[2].state ≠ .failed :=
  ⟨reached_service _ _ _ _ rfl rfl, by decide, by decide +kernel, by decide, by decide +kernel, by decide +kernel,
    by decide +kernel, by decide +kernel⟩

theorem witness_CauseEnableWriteActs :
    ReachedAt .operator (req 1 127 2 1) base ∧ (req 1 127 2 1).index.toNat = (127 : Fin 128).val ∧
      (req 1 127 2 1).value.toNat < 2 ∧ causeKind 127 ≠ .unassigned ∧ causeKind 7 = .unassigned ∧
      (req 1 7 3 0).index.toNat = (7 : Fin 128).val :=
  ⟨reached_operator _ _ _ _ rfl rfl, by decide, by decide, by decide, by decide, by decide⟩

/-- Group 1 with the EVENT causes 18 and 19 named, and group 0 with EXTERNAL_STOP named while it holds. -/
theorem witness_ClearLowersEventsAndKeepsHeldLevels :
    ReachedAt .operator (req 1 1 0 0xC) base ∧ (req 1 1 0 0xC).index.toNat = (1 : Fin 8).val ∧
      (∀ c : Fin 128, (decide (c.val / 16 = 1) && (req 1 1 0 0xC).value.getLsbD (c.val % 16)) = true →
        causeKind c ≠ .level) ∧
      (∀ d : Fin 128, (decide (d.val / 16 = 0) && (req 1 0 0 0x40).value.getLsbD (d.val % 16)) = true ↔ d = 6) ∧
      causeKind 6 = .level ∧
      blockCondition 6 { base with lines := { base.lines with estopIn := true } } = true :=
  ⟨reached_operator _ _ _ _ rfl rfl, by decide, by decide +kernel, by decide +kernel, by decide, by decide +kernel⟩

/-- Limit 12 of the worked sequence of 04, latched in TRIP with its last value on a LIVE channel. -/
def latchedAt (last : Int) : State :=
  chan 22 (liveAt last) { base with
    limits := base.limits.set 12 { limit12 with latch := true, level := .trip, lastValue := some last } }

/-- The CLEAR of cause 101: a last value below both levels less 30 takes the limit to CLEAR, one between them to WARN
with cause 100 pending, and 720, the trip level less 30, leaves it in TRIP. -/
theorem witness_ClearLowersEventsAndKeepsHeldLevels_latched :
    (∀ d : Fin 128, (decide (d.val / 16 = 6) && (req 1 6 0 0x20).value.getLsbD (d.val % 16)) = true ↔ d = 101) ∧
      causeKind 101 = .level ∧
      (let s := latchedAt 669;
        s.limits[12].enable = true ∧ s.limits[12].latch = true ∧ s.limits[12].level = .trip ∧
          s.limits[12].tripCause = 101 ∧ s.limits[12].warnCause ≠ some 101 ∧
          (∀ j : Fin 96, j ≠ 12 → s.limits[j].tripCause ≠ 101 ∧ s.limits[j].warnCause ≠ some 101) ∧
          s.channels[s.limits[12].channel].state = .live ∧ s.limits[12].lastValue = some 669 ∧
          s.limits[12].direction = .high ∧ 669 < s.limits[12].trip - s.limits[12].hysteresis ∧
          669 < s.limits[12].warn - s.limits[12].hysteresis) ∧
      (after (.clear 14 (req 1 6 0 0x20)) (latchedAt 669)).limits[12].level = .clear ∧
      (after (.clear 14 (req 1 6 0 0x20)) (latchedAt 670)).limits[12].level = .warn ∧
      (after (.clear 14 (req 1 6 0 0x20)) (latchedAt 719)).causes[100].pending = true ∧
      (after (.clear 14 (req 1 6 0 0x20)) (latchedAt 720)).limits[12].level = .trip ∧
      (after (.clear 14 (req 1 6 0 0x20)) (latchedAt 720)).causes[101].pending = true := by decide +kernel

/-- EXTERNAL_STOP with its line deasserted, and REPORT_OVERFLOW with a record in the queue and without. -/
theorem witness_ClearLowersEventsAndKeepsHeldLevels_levels :
    blockCondition 6 base = false ∧ causeKind 80 = .level ∧
      (∀ d : Fin 128, (decide (d.val / 16 = 5) && (req 1 5 0 1).value.getLsbD (d.val % 16)) = true ↔ d = 80) ∧
      (let s (l : List FaultRecord) : State := { base with reports := { queue := l, overflow := true, delivering := false } };
        (s [FaultRecord.coldTwist]).reports.queue ≠ [] ∧ (s [FaultRecord.coldTwist]).reports.overflow = true ∧
          (s []).reports.queue = []) ∧ base.causes[6].reportEnable = true := by decide +kernel

theorem witness_StatusReplyGivesOnlineCount :
    ReachedAt .operator (req 1 0 0 0) base ∧ running.sects[0].state = .online ∧
      running.sects[5].state ≠ .online :=
  ⟨reached_operator _ _ _ _ rfl rfl, by decide +kernel, by decide +kernel⟩

/-- 09 R157: of causes of every group the one of group 0 leads, then group 6, and with none pending there is no top. -/
theorem witness_StatusReplyGivesOnlineCount_topCause :
    let up (l : List (Fin 128)) : State :=
      { base with causes := base.causes.mapFinIdx fun k x h => if (⟨k, h⟩ : Fin 128) ∈ l then { x with pending := true } else x }
    topCause (up [16, 32, 48, 64, 80, 96, 112, 6]) = some 6 ∧ topCause (up [16, 32, 64, 80, 97, 96, 112]) = some 96 ∧
      topCause (up [16, 32, 64, 112]) = some 112 ∧ topCause base = none := by decide +kernel

/-- A nacelle with its rating and its curves, ready to start. -/
def ready : State :=
  { base with
    power := { Power.cold with rating := 15000 }
    curves := Vector.replicate 5 { coolant with count := 2 } }

theorem witness_StartAndStopMoveNacelle :
    ReachedAt .operator (req 1 0 0 0) ready ∧ ready.sup.nacelle = .loading ∧ ready.ring.broken = false ∧
      ready.lines.estopIn = false ∧ 0 < ready.power.rating ∧ (∀ i : Fin 5, 2 ≤ ready.curves[i].count) ∧
      (¬ ∃ i : Fin 96, ready.limits[i].enable = true ∧ ready.limits[i].action = .nacelleStop ∧
        ready.limits[i].level = .unbound) ∧
      (¬ ∃ i : Fin 96, ready.limits[i].enable = true ∧ ready.limits[i].action = .nacelleStop ∧
        ready.limits[i].level = .trip) ∧
      ready.causes[53].pending = false ∧ ¬ 0 < base.power.rating ∧ running.sup.nacelle = .operating :=
  ⟨reached_operator _ _ _ _ rfl rfl, rfl, rfl, rfl, by decide +kernel, by decide +kernel, by decide +kernel,
    by decide +kernel, by decide +kernel, by decide +kernel, by decide +kernel⟩

theorem witness_RestartWarmResets : ReachedAt .service (req 2 0 0 0) (keyed running) :=
  reached_service _ _ _ _ rfl rfl

def testing : State := keyed { base with sup := { base.sup with nacelle := .test } }

theorem witness_TestEnterAndExit :
    ReachedAt .service (req 2 0 0 0) (keyed base) ∧ (keyed base).sup.nacelle = .loading ∧
      (keyed base).yaw.mode = .held ∧ (keyed (yawIn .braking base)).yaw.mode ≠ .parked ∧
      (keyed (yawIn .braking base)).yaw.mode ≠ .held ∧ (keyed running).sup.nacelle ≠ .loading ∧
      (keyed running).sup.nacelle ≠ .stopped ∧ testing.sup.nacelle = .test :=
  ⟨reached_service _ _ _ _ rfl rfl, rfl, rfl, by decide, by decide, by decide, by decide, rfl⟩

/-- Section 5 HELD, with READY on channel 20 and its heatsink on channel 21. -/
def releasable : State :=
  chan 20 (liveAt 1) (chan 21 (liveAt 640) (operating { base with
    cool := { Cool.cold with dry := true }
    sects := base.sects.set 5 { Sect.cold with present := true, state := .held, status := 20, heatsink := 21 } }))

theorem witness_SectionReleaseAndHold :
    ReachedAt .operator (req 1 5 0 0) releasable ∧ 6 ≤ (req 1 6 0 0).index.toNat ∧
      (req 1 5 0 0).index.toNat = (5 : Fin 6).val ∧ releasable.sup.nacelle = .operating ∧
      releasable.sects[5].state = .held ∧ releasable.cool.dry = true ∧
      releasable.channels[releasable.sects[5].status].state = .live ∧
      releasable.channels[releasable.sects[5].status].value = 1 ∧
      releasable.channels[releasable.sects[5].heatsink].state = .live ∧ releasable.sects[0].state = .absent ∧
      running.sects[0].state = .online :=
  ⟨reached_operator _ _ _ _ rfl rfl, by decide, by decide, rfl, by decide +kernel, rfl, by decide +kernel,
    by decide +kernel, by decide +kernel, by decide +kernel, by decide +kernel⟩

/-- The yaw permitted in state `m` with a heading on channel 2, at a twist. -/
def permittedIn (m : YawMode) (twist : Int) : State :=
  chan 2 (liveAt 90) (operating { base with
    yawCfg := { YawSettings.cold with heading := 2 }
    yaw := { Yaw.cold with mode := m, twistKnown := true, twist := twist } })

theorem witness_YawCommandsMoveState :
    ReachedAt .operator (req 1 0 0 0) (permittedIn .held 0) ∧ (permittedIn .held 0).yaw.mode = .held ∧
      (permittedIn .held 0).sup.nacelle = .operating ∧ (permittedIn .held 0).ring.broken = false ∧
      (permittedIn .held 0).yaw.twistKnown = true ∧
      (permittedIn .held 0).channels[(permittedIn .held 0).yawCfg.heading].state = .live ∧
      (¬ ∃ i : Fin 96, (permittedIn .held 0).limits[i].enable = true ∧ (permittedIn .held 0).limits[i].level = .trip ∧
        (permittedIn .held 0).limits[i].action = .yawHold) ∧
      (permittedIn .held 0).yaw.unwindMark = false ∧
      (permittedIn .parked 721).yawCfg.unwindTarget < (permittedIn .parked 721).yaw.twist.natAbs ∧
      ReachedAt .service (req 2 1 0 40001) (keyed (permittedIn .parked 0)) ∧ (req 2 1 0 40001).index = 1 ∧
      (permittedIn .parked 0).sup.mode.yawAuto = false :=
  ⟨reached_operator _ _ _ _ rfl rfl, rfl, rfl, rfl, rfl, by decide +kernel, by decide +kernel, rfl, by decide +kernel,
    reached_service _ _ _ _ rfl rfl, rfl, rfl⟩

/-- A refusal by each last check: a tripped YAW_HOLD limit, |twist| at unwind_target, and the hard condition; and the
nacelle STOPPED by the ring break and by a cause of group 3. -/
theorem witness_YawCommandsMoveState_refusals :
    let tripped : State := { permittedIn .held 0 with
      limits := base.limits.set 40 { Limit.cold with enable := true, action := .yawHold, level := .trip } }
    let stopped (c : Fin 128) : State := { permittedIn .held 0 with
      sup := { base.sup with nacelle := .stopped, reason := .cause c } }
    answer (.yawResume (req 1 0 0 0)) tripped = some (.refusedState, 6, false) ∧
      answer (.yawUnwind (req 1 0 0 0)) (permittedIn .parked 720) = some (.refusedState, 6, false) ∧
      answer (.yawJog (req 2 0 0 1)) (keyed (permittedIn .parked 10800)) = some (.refusedState, 7, false) ∧
      answer (.yawResume (req 1 0 0 0)) (stopped 1) = some (.refusedState, 2, false) ∧
      answer (.yawResume (req 1 0 0 0)) (stopped 53) = some (.refusedState, 2, false) ∧
      answer (.yawResume (req 1 0 0 0)) (stopped 6) = some (.ok, 0, false) := by decide +kernel

/-- The close of each yaw state: its count advances by one, a wait's idle count while the issued sum is 0 and not while
an ONLINE section has no LIVE feedback, and the tick counter in all. -/
theorem witness_YawMovementEnds_close :
    let at_ (m : YawMode) (p : Phase) (s : State) : State := { s with yaw := { Yaw.cold with
      mode := m, phase := p, twistKnown := true, unwindMark := true, idleCount := 3 } }
    let y (m : YawMode) (p : Phase) : Yaw := (blockClose .yaw (at_ m p (permittedIn .held 0))).yaw
    (∀ m ∈ [YawMode.releasing, .unwinding, .jogging], (y m .release).releaseCount = 1) ∧
      (y .slewing .release).slewCount = 1 ∧ (y .unwinding .slew).staggerCount = 1 ∧ (y .jogging .slew).stallCount = 1 ∧
      (y .stopping .slew).coastCount = 1 ∧ (y .braking .slew).brakeCount = 1 ∧
      ((y .unwindWait .slew).idleCount = 4 ∧ (y .unwindWait .slew).waitCount = 1) ∧
      (blockClose .yaw (at_ .unwindWait .slew { permittedIn .held 0 with
        sects := base.sects.set 5 (sectWith 2151 .online) })).yaw.idleCount = 0 ∧
      (∀ m ∈ [YawMode.parked, .held], (y m .slew).tickCount = 1) := by decide +kernel

theorem witness_ForcingCommandsInTest :
    ReachedAt .service (req 2 127 0 40000) testing ∧ (req 2 127 0 40000).index.toNat = (127 : Fin 128).val ∧
      testing.sup.nacelle = .test ∧ testing.channels[127].configured = false ∧
      (chan 127 (liveAt 3) testing).channels[127].configured = true ∧
      readersOf (chan 127 (liveAt 3) testing) 127 = [] ∧
      (chan 127 { liveAt 3 with forced := true } testing).channels[127].forced = true ∧
      (chan 127 { liveAt 3 with forced := true } testing).channels[127].state = .live ∧
      causeKind 127 ≠ .unassigned ∧ (keyed base).sup.nacelle ≠ .test :=
  ⟨reached_service _ _ _ _ rfl rfl, by decide, rfl, by decide +kernel, by decide +kernel, by decide +kernel,
    by decide +kernel, by decide +kernel, by decide, by decide⟩

/-- The cooling unit alone reads T_in of channel 15; with T_cab and RH LIVE the margin is known. -/
theorem witness_ForcingCommandsInTest_cooling :
    let s := chan 13 (liveAt 220) (chan 14 (liveAt 850) { testing with
      channels := (mapped .wide).channels
      coolCfg := { CoolSettings.cold with tin := 15, tcab := 13, rh := 14 }
      cool := { Cool.cold with dry := true, beenDry := true, commanded := 4 } })
    s.sup.nacelle = .test ∧ s.channels[15].configured = true ∧ readersOf s 15 = [.cooling] ∧ s.cool.dry = true ∧
      readersOf s 13 = [.cooling] ∧ (13 : Fin 128) ≠ s.coolCfg.tin ∧
      (let t := after (.injectValue (req 2 15 0 209)) s;
        t.cool.margin = some 19 ∧ t.cool.commanded = 1 ∧ t.cool.dry = false ∧ t.causes[67].pending = true) := by
  decide +kernel

theorem witness_RaiseRecordsOncePending :
    base.causes[2].pending = false ∧ base.causes[2].reportEnable = true ∧ base.reports.queue.length < 32 ∧
      ({ base with causes := base.causes.set 2 { Cause.cold with reportEnable := false } } : State).causes[2].reportEnable =
        false ∧
      32 ≤ ({ base with reports := { base.reports with queue := List.replicate 32 FaultRecord.coldTwist } } : State).reports.queue.length ∧
      (raise 2 .none .none none base).causes[2].pending = true := by decide +kernel

theorem witness_LimitEvaluationMovesLevel :
    let limit12 : Limit := { limit12 with persistence := 1 }
    limit12.enable = true ∧ limit12.level ≠ .unbound ∧ limit12.latch = false ∧ limit12.direction = .high ∧
      limit12.level = .clear ∧ limit12.persistence = 1 ∧ limit12.warn ≤ limit12.trip ∧
      limit12.trip - limit12.hysteresis ≤ 720 ∧ ({ limit12 with latch := true, level := .trip } : Limit).level = .trip ∧
      ({ limit12 with direction := .low, warn := 200, trip := 100 } : Limit).trip ≤ 200 := by decide

/-- A level other than the own one below persistence and at it; WARN and TRIP left one past the hysteresis; a latched
TRIP; and a move into TRIP with each action that acts at once. -/
theorem witness_LimitEvaluationMovesLevel_moves :
    let at_ (l : Limit) : State := operating { base with
      limits := base.limits.set 12 l, sects := base.sects.set 2 (sectWith 2151 .online), yaw := { Yaw.cold with mode := .slewing } }
    let level (l : Limit) (v : Int) : Level := (evaluateLimit 12 v (at_ l)).limits[12].level
    let quick : Limit := { limit12 with persistence := 1 }
    ({ limit12 with target := .trip, counter := 1 } : Limit).counter + 1 < limit12.persistence ∧
      limit12.persistence ≤ ({ limit12 with target := .trip, counter := 2 } : Limit).counter + 1 ∧
      level limit12 758 = .clear ∧ level quick 700 = .warn ∧ level quick 750 = .trip ∧
      level { quick with level := .trip } 720 = .trip ∧ level { quick with level := .trip } 719 = .warn ∧
      level { quick with level := .warn } 670 = .warn ∧ level { quick with level := .warn } 669 = .clear ∧
      level { quick with level := .trip, latch := true } 0 = .trip ∧
      (evaluateLimit 12 750 (at_ { quick with action := .isolateSection })).sects[2].state = .isolated ∧
      (evaluateLimit 12 750 (at_ { quick with action := .isolateAll })).sects[2].state = .isolated ∧
      (evaluateLimit 12 750 (at_ { quick with action := .yawHold })).yaw.mode = .held ∧
      (evaluateLimit 12 750 (at_ { quick with action := .nacelleStop })).sup.reason = .cause 101 := by decide +kernel

theorem witness_CurveAnswerStaysWithinOrdinates :
    2 ≤ coolant.count ∧ coolant.count ≤ 8 ∧
      (∀ j k : Fin 8, j < k → k.val < coolant.count → coolant.points[j].x < coolant.points[k].x) ∧
      ∀ j : Fin 8, j.val < coolant.count → 0 ≤ coolant.points[j].y ∧ coolant.points[j].y ≤ 256 := by decide

/-- With the gate closed and open, and with an ONLINE section outside TEST. -/
theorem witness_DispatchSharesTheCeiling :
    base.sup.nacelle ≠ .operating ∧ dispatchCase.sects[0].state = .online ∧ dispatchCase.sup.nacelle ≠ .test ∧
      dispatchCase.sup.nacelle = .operating ∧ dispatchCase.sup.mode.runEnable = true ∧
      dispatchCase.sects[5].state ≠ .online := by decide +kernel

/-- 06 R93, R95, R96 by hand: a request of 11 over capabilities 10, 10, 10 gives floors 3, remainders 20 and a deficit
of 2, which sections 0 and 1 take; the term is REQUEST, CAPABILITY at 30 and below the request, the earlier of two that
are equal, LIMIT by the lesser of two CEILING limits in TRIP, and GATE with the gate closed. -/
theorem witness_DispatchSharesTheCeiling_shares :
    let trip (n : Nat) : Limit := { Limit.cold with enable := true, level := .trip, action := .ceiling, actionValue := n }
    let s (rEff : Nat) (run : Bool) (limits : Vector Limit 96) : State := operating { base with
      power := { Power.cold with rating := 100, rEff }, cool := { Cool.cold with factor := 256 }
      yaw := { Yaw.cold with factor := 256 }, limits
      sup := { base.sup with mode := { Mode.cold with runEnable := run } }
      sects := #v[sectWith 10 .online, sectWith 10 .online, sectWith 10 .online, Sect.cold, Sect.cold, Sect.cold] }
    let closed (x : State) : Nat × CeilingTerm :=
      let p := (dispatchAtClose x).power
      (p.ceiling, p.term)
    (dispatchAtClose (s 11 true base.limits)).power.shares = #v[4, 4, 3, 0, 0, 0] ∧
      closed (s 11 true base.limits) = (11, .request) ∧ closed (s 31 true base.limits) = (30, .capability) ∧
      closed (s 30 true base.limits) = (30, .request) ∧ closed (s 11 false base.limits) = (0, .gate) ∧
      closed (s 11 true ((base.limits.set 3 (trip 9)).set 95 (trip 8))) = (8, .limit) := by decide +kernel

/-- Section 2 ONLINE and ISOLATED, with a limit in TRIP that isolates it, with one that derates it to 128, and with
none. -/
theorem witness_DispatchSharesTheCeiling_sections :
    let s (st : SectState) (l : Limit) : State := { base with
      limits := base.limits.set 12 l
      sects := base.sects.set 2 { Sect.cold with present := true, state := st, rating := 2700, thermal := 204 } }
    let closed (st : SectState) (l : Limit) : Sect := (sectionsClose (s st l)).sects[2]
    let tripped : Limit := { limit12 with level := .trip }
    (s .online tripped).sects[2].present = true ∧
      (closed .online { tripped with action := .isolateSection }).state = .isolated ∧
      (closed .held { tripped with action := .isolateAll }).state = .isolated ∧
      (closed .isolated { tripped with action := .isolateSection }).state = .isolated ∧
      (closed .isolated Limit.cold).state = .held ∧ (closed .online tripped).health = 128 ∧
      (closed .online tripped).capability = 1075 ∧ (closed .online Limit.cold).capability = 2151 ∧
      (closed .held Limit.cold).capability = 0 := by decide +kernel

theorem witness_PumpsFollowTheOrderList :
    base.pumps[0].state = .off ∧ (pumpAt .starting).pumps[2].state = .starting ∧
      (pumpAt .running).pumps[2].state = .running ∧ (pumpAt .failed).pumps[2].state = .failed := by decide +kernel

/-- The close of `pumpCase` with the request at 0 and PUMP_DEMAND unset: n_req becomes 3, pump 0 enters STARTING and is
judged at the next close, and pumps 1 and 2 were RUNNING. -/
theorem witness_PumpsFollowTheOrderList_close :
    requiredNow { pumpCase with sup := { base.sup with nacelle := .stopped } } = 3 ∧ requiredNow base = 0 ∧
      requiredNow base = base.cool.required ∧
      (let t := pumpsAtClose { pumpCase with sup := { base.sup with nacelle := .stopped } };
        t.cool.required = 3 ∧ t.pumps[0].state = .starting ∧ t.pumps[0].startCount = 0 ∧ t.pumps[1].state = .failed ∧
          t.pumps[2].minuteCount = 1 ∧ t.pumps[1].minuteCount = 0) := by decide +kernel

/-- A RUNNING pump leads though it has served longest; of pumps with equal run minutes the lower number leads; a
FAILED pump has no place. -/
theorem witness_PumpsFollowTheOrderList_order :
    let s (a b c : PumpState) : State := { base with
      pumps := #v[{ Pump.cold with present := true, state := a, runMinutes := 5 },
        { Pump.cold with present := true, state := b, runMinutes := 9 },
        { Pump.cold with present := true, state := c, runMinutes := 5 }] }
    (reorderPumps (s .off .running .off)).cool.order = [1, 0, 2] ∧
      (reorderPumps (s .starting .running .off)).cool.order = [0, 1, 2] ∧
      (reorderPumps (s .failed .off .off)).cool.order = [2, 1] := by decide +kernel

end Sys2Proof.Tests
end

section
/-! PROOF. Every command answers a next state, keeps the queue of commands and keeps a safe state safe; the reset state
is one. -/

open Sys2Proof Sys2Proof.Machine

namespace Sys2Proof.Machine

/-! ### Every command answers -/

/-- No meaning stops: every command answers the state that follows it. -/
theorem exec_eq_next (c : Instr) (s : State) : exec c s = .next (stateAfter c s) := by
  cases c <;> rfl

namespace Kept

/-! ### What the rows of the ring keep -/

theorem lapseTimeout (now : Nat) (s : State) : Kept s (Machine.lapseTimeout now s) := by
  unfold Machine.lapseTimeout
  split
  · split
    · exact lapseRound s
    · exact refl s
  · exact refl s

theorem ringBreak (s : State) : Kept s (Machine.ringBreak s) :=
  have k := ringBreak_kept s
  ⟨k.queue, Safe.ringBreak, fun a => a.same k.windows k.plan⟩

theorem towerLoss (now : Nat) (s : State) : Kept s (Machine.towerLoss now s) := by
  unfold Machine.towerLoss
  split
  · dsimp only
    have island : Kept (Machine.lapseRound s)
        { Machine.lapseRound s with ring := { (Machine.lapseRound s).ring with mode := .island } } := ringSet _ _
    exact (lapseRound s).trans (island.trans ((raise _ _ _ _ _).trans (openIsland _ _)))
  · exact refl s

theorem islandRoundDue (now : Nat) (s : State) : Kept s (Machine.islandRoundDue now s) := by
  unfold Machine.islandRoundDue
  split
  · dsimp only
    split
    · exact lapseRound s
    · exact (lapseRound s).trans (openIsland _ _)
  · exact refl s

theorem rejoinTimeout (now : Nat) (s : State) : Kept s (Machine.rejoinTimeout now s) := by
  unfold Machine.rejoinTimeout
  split
  · exact ringSet s _
  · exact refl s

/-! ### What the local lines keep -/

/-- ESTOP_IN stops an OPERATING nacelle with the same arrival that asserts it (R168). -/
theorem estopOn (s : State) : Kept s (Machine.estopOn s) := by
  unfold Machine.estopOn
  split
  · exact refl s
  · have k : ReaderKept { s with lines := { s.lines with estopIn := true } } _ :=
      (ReaderKept.raise CauseNo.externalStop .nacelleStop .none none _).trans
        (ReaderKept.stopDemand (.cause CauseNo.externalStop) _)
    refine ofSame (fun h => Safe.stopDemand_of _ ?_ ?_ ?_ ?_ ?_) k.queue k.windows k.plan
    · simpa using h.stopLine
    · simpa using h.brakeLine
    · simpa using h.onlineOperating
    · exact raise_queue_le _ _ _ _ _ h.queueBound
    · simpa using h.windowBound

theorem estopOff (s : State) : Kept s (Machine.estopOff s) :=
  ofSame fun h => ⟨h.stopLine, h.brakeLine, h.onlineOperating, fun e => ⟨(h.operatingClear e).1, rfl⟩,
    h.queueBound, h.windowBound⟩

theorem serviceKeyTurned (on : Bool) (s : State) : Kept s (Machine.serviceKeyTurned on s) :=
  ofSame fun h => ⟨h.stopLine, h.brakeLine, h.onlineOperating, h.operatingClear, h.queueBound, h.windowBound⟩

/-! ### What the request rows keep -/

theorem formatFailed (a : Cell) (s : State) : Kept s (Machine.formatFailed a s) := prepare _ s

theorem writeRow (table : Octet) (r : ReqArgs) (s : State) :
    Kept s (Machine.inFollowing (Machine.writeRequest table r) s) :=
  inFollowing _ s (writeRequest table r s)

theorem commandRow {no : Octet} {r : ReqArgs} {c : Command} (h : Machine.commandOf no r = some c) (s : State) :
    Kept s (Machine.inFollowing (Machine.commandRequest no c r) s) :=
  inFollowing _ s (commandRequest no c r s (commandOf h s))

/-! ### Every command but COLD_RESET -/

/-- Every command but COLD_RESET keeps the queue, a safe state, and plan and slot map apart. -/
theorem stateAfter (c : Instr) (s : State) (warm : ∀ now, c ≠ .coldReset now) : Kept s (stateAfter c s) := by
  cases c with
  | coldReset now => exact absurd rfl (warm now)
  | towerHead c now | setpointArrival c now | downstreamCell c now => exact towerPortCell c now s
  | awaitHeadTimeout now => exact awaitDue now s
  | formatFailure a => exact inFollowing _ s (formatFailed a s)
  | returningHead c | nodeSlotArrival c | reservedSlotWrite c | roundClose c | upstreamReservedForward c =>
    exact nodeInCell c s
  | roundLapse now => exact lapseTimeout now s
  | ringBreak => exact ringBreak s
  | ringBreakEnd => exact ringBreakEnd s
  | towerLoss now => exact towerLoss now s
  | islandRound now => exact islandRoundDue now s
  | rejoinTimeout now => exact rejoinTimeout now s
  | rejoinComplete => exact rejoinComplete s
  | channelStale ch => exact ofBlock (BlockKept.channelStale ch s) fun h => h.channelStale ch
  | setpointLoss => exact ofBlock (BlockKept.setpointLost s) Safe.setpointLost
  | decimationTick => exact ofBlock (BlockKept.decimationTick s) Safe.decimationTick
  | automaticStart => exact ofBlock (BlockKept.automaticStart s) Safe.automaticStart
  | releaseEnd => exact ofBlock (BlockKept.releaseEnd s) Safe.releaseEnd
  | brakeStuck => exact ofBlock (BlockKept.brakeStuck s) Safe.brakeStuck
  | groupBStart => exact ofBlock (BlockKept.groupBStart s) Safe.groupBStart
  | yawStall => exact ofBlock (BlockKept.yawStall s) Safe.yawStall
  | yawOvertime => exact ofBlock (BlockKept.yawOvertime s) Safe.yawOvertime
  | coastEnd => exact ofBlock (BlockKept.coastEnd s) Safe.coastEnd
  | brakeEnd => exact ofBlock (BlockKept.brakeEnd s) Safe.brakeEnd
  | idleConfirm => exact ofBlock (BlockKept.idleConfirm s) Safe.idleConfirm
  | unwindBlocked => exact ofBlock (BlockKept.unwindBlocked s) Safe.unwindBlocked
  | jogEnd => exact ofBlock (BlockKept.jogEnd s) Safe.jogEnd
  | pumpStartFail k =>
    exact pumpsSettled _ s (ofBlock (BlockKept.pumpStartFail k s) fun h => h.pumpStartFail k)
  | pumpFlowFail k => exact pumpsSettled _ s (ofBlock (BlockKept.pumpFlowFail k s) fun h => h.pumpFlowFail k)
  | runMinute k => exact ofBlock (BlockKept.runMinute k s) fun h => h.runMinute k
  | thermalStageStep => exact ofBlock (BlockKept.thermalStageStep s) Safe.thermalStageStep
  | fanStep => exact ofBlock (BlockKept.fanStep s) Safe.fanStep
  | dryConfirm => exact ofBlock (BlockKept.dryConfirm s) Safe.dryConfirm
  | estopAsserted => exact estopOn s
  | estopDeasserted => exact estopOff s
  | serviceKeyChange on => exact serviceKeyTurned on s
  | read table r => exact inFollowing _ s (readRequest table r s)
  | write table r => exact writeRow table r s
  | modeWrite r => exact writeRow 15 r s
  | slotMapWrite r => exact writeRow 2 r s
  | channelConfigWrite remap r => exact writeRow _ r s
  | curveCountWrite r => exact writeRow 6 _ s
  | limitWrite r => exact writeRow 5 r s
  | commandPlanWrite r => exact writeRow 7 r s
  | sectionPresentWrite r => exact writeRow 8 _ s
  | sectionBlindWrite r => exact writeRow 9 _ s
  | twistWrite r => exact writeRow 11 _ s
  | pumpPresentWrite r => exact writeRow 13 _ s
  | pumpStateWrite r => exact writeRow 13 _ s
  | causeEnableWrite r => exact writeRow 14 r s
  | clear table r => exact inFollowing _ s (clearRequest table r s)
  | statusRequest table r => exact inFollowing _ s (statusRequest table r s)
  | start r => exact commandRow (no := 1) rfl s
  | stop r => exact commandRow (no := 2) rfl s
  | restart r => exact commandRow (no := 3) rfl s
  | testEnter r => exact commandRow (no := 4) rfl s
  | testExit r => exact commandRow (no := 5) rfl s
  | sectionRelease r => exact commandRow (no := 6) rfl s
  | sectionHold r => exact commandRow (no := 7) rfl s
  | yawResume r => exact commandRow (no := 8) rfl s
  | yawUnwind r => exact commandRow (no := 9) rfl s
  | yawJog r => exact commandRow (no := 10) rfl s
  | injectValue r => exact commandRow (no := 11) rfl s
  | injectCause r => exact commandRow (no := 12) rfl s
  | releaseForce r => exact commandRow (no := 13) rfl s

end Kept

/-- A command is COLD_RESET, or it keeps what every other command keeps. -/
theorem coldReset_or_kept (c : Instr) (s : State) :
    (∃ now, c = .coldReset now) ∨ Kept s (stateAfter c s) := by
  by_cases h : ∃ now, c = .coldReset now
  · exact .inl h
  · exact .inr (Kept.stateAfter c s fun now e => h ⟨now, e⟩)

theorem stateAfter_pending (c : Instr) (s : State) : (stateAfter c s).pending = s.pending := by
  obtain ⟨now, rfl⟩ | k := coldReset_or_kept c s
  · exact (Kept.coldReset now s).2.2
  · exact k.queue

theorem stateAfter_safe (c : Instr) (s : State) (h : Safe s) : Safe (stateAfter c s) := by
  obtain ⟨now, rfl⟩ | k := coldReset_or_kept c s
  · exact (Kept.coldReset now s).1
  · exact k.safe h

/-! ### The reset state -/

theorem safe_reset : Safe State.reset where
  stopLine := rfl
  brakeLine := rfl
  onlineOperating := fun i hi => by
    have absent : State.reset.sects[i].state = .absent := by
      simp [State.reset, State.coldBase, Sect.cold]
    rw [absent] at hi
    cases hi
  operatingClear := fun e => nomatch e
  queueBound := by simp [State.reset]
  windowBound := Nat.zero_le _

theorem planApart_reset : PlanApart State.reset := by
  have off : ∀ k : Fin 16, State.reset.plan[k].enable = false := by
    intro k
    simp [State.reset, State.coldBase, PlanEntry.cold]
  exact ⟨fun j k hj => absurd hj (by rw [off j]; decide), fun k i hk => absurd hk (by rw [off k]; decide)⟩

/-- TWIST_UNKNOWN and COOLING_BLIND alone are pending at reset (R111, R140, R164). -/
theorem reset_cause_pending (c : Fin 128) : State.reset.causes[c].pending = decide (c = 56 ∨ c = 66) := by
  simp only [State.reset, State.coldBase, Fin.getElem_fin, Vector.getElem_set, Vector.getElem_replicate,
    Fin.ext_iff]
  by_cases h : c.val = 66
  · simp [h]
  · by_cases k : c.val = 56
    · simp [k]
    · simp [h, k, Ne.symm h, Ne.symm k, Cause.cold]

end Sys2Proof.Machine

/-- Settles O3: the command at the front of the queue keeps a safe state safe, and safety does not read the queue. -/
theorem safeKeptByEveryStep : Obligations.SafeKeptByEveryStep := by
  intro s t h e
  unfold step at e
  split at e
  · cases e
    exact h
  · rename_i c rest _
    rw [exec_eq_next] at e
    cases e
    exact stateAfter_safe c _ h.same

/-- Settles O2: no meaning stops, and none touches the queue. -/
theorem everyCommandAnswersAndKeepsQueue : Obligations.EveryCommandAnswersAndKeepsQueue :=
  fun c s => ⟨stateAfter c s, exec_eq_next c s, stateAfter_pending c s⟩

/-- Settles O5. -/
theorem resetStateIsSafeAndCold : Obligations.ResetStateIsSafeAndCold := by
  refine ⟨safe_reset, planApart_reset, ?_⟩
  refine ⟨rfl, rfl, rfl, rfl, rfl, rfl, rfl, rfl, rfl, rfl, rfl, rfl, rfl, rfl, rfl, rfl, rfl,
    reset_cause_pending, ?_⟩
  simp [State.reset]

end


section
/-! PROOF. The tower port: heads, the await timeout, the setpoint and its loss. -/

open Sys2Proof Sys2Proof.Machine

namespace Sys2Proof.Machine

/-! ### A cell where a head is awaited -/

/-- While a head is awaited, every cell is taken as one (R1, R4). -/
theorem towerPortCell_awaiting (c : Cell) (now : Nat) (s : State) (port : s.ring.port = none) :
    towerPortCell c now s = headArrival c now s := by
  simp only [towerPortCell, awaitDue, port]

/-- What makes a cell an accepted tower head (R4). -/
theorem acceptedHead_iff (c : Cell) : (cellPasses c 0 && isTowerHead c) = true ↔
    cellPasses c 0 = true ∧ c.kind = Kind.head ∧ c.attr = 1 ∧ 9 ≤ lastSlot c := by
  simp only [isTowerHead, Bool.and_eq_true, decide_eq_true_iff, and_assoc]
  exact Iff.rfl

/-- An accepted head in FOLLOWING opens its round (R4, R6). -/
theorem headArrival_following (c : Cell) (now : Nat) (s : State) (mode : s.ring.mode = .following)
    (accepted : (cellPasses c 0 && isTowerHead c) = true) : headArrival c now s = followHead c now s := by
  unfold headArrival
  rw [if_pos accepted, mode]

/-- An accepted head in ISLAND or REJOINING counts toward the rejoin (R4, R17). -/
theorem headArrival_away (c : Cell) (now : Nat) (s : State) (mode : s.ring.mode ≠ .following)
    (accepted : (cellPasses c 0 && isTowerHead c) = true) : headArrival c now s = rejoinHead c now s := by
  unfold headArrival
  rw [if_pos accepted]
  split
  · rename_i following
    exact absurd following mode
  · rfl
  · rfl

/-- A cell that is no accepted head is rejected (R4). -/
theorem headArrival_rejected (c : Cell) (now : Nat) (s : State)
    (rejected : ¬ (cellPasses c 0 && isTowerHead c) = true) : headArrival c now s = rejectHead c s := by
  unfold headArrival
  rw [if_neg rejected]

/-- With no round out nothing lapses (R13). -/
theorem lapseRound_of_none (s : State) (out : s.ring.roundOut = none) : lapseRound s = s := by
  simp only [lapseRound, out]

/-- The ring once an accepted head has been recorded, forwarded, and has opened its round (R3 to R6). -/
theorem openRound_headRecorded (c : Cell) (now : Nat) (u : State) :
    openRound .tower c (roundNumber c) (lastSlot c) now (headRecorded c true now u) =
      { u with ring := { u.ring with
        estimate := estimateAfter u now
        lastHead := some { time := now, number := roundNumber c, last := lastSlot c }
        port := some { nextPos := 1, last := lastSlot c, forwarded := true, startedAt := now }
        heldRequest := none
        towerTimer := now
        nodeOut := u.ring.nodeOut ++ [c]
        lastHeadOut := some (roundNumber c)
        roundOut := some { number := roundNumber c, originator := .tower, last := lastSlot c, openedAt := now,
                           headReturned := false, nextPos := 0 } } } := rfl

/-- The rejoin counter goes on while heads keep within twice the estimate (R17). -/
theorem rejoinAfter_in_time (s : State) (now : Nat) (h : LastHead) (mode : s.ring.mode = .rejoining)
    (last : s.ring.lastHead = some h) (gap : now - h.time ≤ 2 * estimateNow s) :
    rejoinAfter s now = s.ring.rejoin + 1 := by
  simp only [rejoinAfter, mode, last, if_pos gap]

/-- The rejoin counter starts again after a gap of more than twice the estimate (R17). -/
theorem rejoinAfter_late (s : State) (now : Nat) (h : LastHead) (mode : s.ring.mode = .rejoining)
    (last : s.ring.lastHead = some h) (gap : 2 * estimateNow s < now - h.time) : rejoinAfter s now = 1 := by
  simp only [rejoinAfter, mode, last, if_neg (Nat.not_le.2 gap)]

/-- The first head counts as 1 (R17). -/
theorem rejoinAfter_first (s : State) (now : Nat) (first : s.ring.mode = .island ∨ s.ring.lastHead = none) :
    rejoinAfter s now = 1 := by
  unfold rejoinAfter
  split
  · rename_i mode last
    rw [mode, last] at first
    simp at first
  · rfl

/-! ### The cells of a forwarded round -/

/-- A cell at a position of a round that is forwarded (R1, R6): the port counts it, it is checked, and the slot does
its work. -/
theorem towerPortCell_forwards {s : State} {p : TowerCount} {pos now : Nat} (c : Cell)
    (h : Forwarding s p pos now) : towerPortCell c now s =
      forwardSlot c pos (checked 0 c pos { s with ring := { s.ring with port := portAfter p } }) := by
  rw [towerPortCell_forwarding c h, checked_with_ring 0 c pos s { s.ring with port := portAfter p } rfl]

/-- A cell that fails its check raises CELL_CHECK with its port and position (R1, R18). -/
theorem checked_of_fails (port : Nat) (c : Cell) (pos : Nat) (s : State) (h : cellPasses c pos = false) :
    checked port c pos s = raise CauseNo.cellCheck .none .none (some (unsignedFigure (256 * port + pos))) s := by
  unfold checked
  rw [if_neg (by simp [h])]

/-- A rise, then a cell on node-out: the ring shows the cell alone. -/
theorem sendNode_raise_ring (x : Cell) (c : Fin 128) (a : RecAction) (sub : Subject) (v : Option Half) (s : State)
    (r : Ring) (h : r.extCount = s.ring.extCount) : sendNode x (raise c a sub v { s with ring := r }) =
      { raise c a sub v s with ring := { r with nodeOut := r.nodeOut ++ [x] } } := by
  rw [raise_with_ring c a sub v s r h]
  rfl

/-- Slot 1 by what its cell is (R7). -/
theorem setpointSlot_setpoint (c : Cell) (s : State) (passes : cellPasses c 1 = true) (kind : c.kind = Kind.setpoint) :
    setpointSlot c s = sendNode (idleCell 1) (setpointTaken c.payload.toNat s) := by
  simp [setpointSlot, passes, kind]

theorem setpointSlot_idle (c : Cell) (s : State) (passes : cellPasses c 1 = true) (kind : c.kind = Kind.idle) :
    setpointSlot c s = sendNode (idleCell 1) s := by
  simp [setpointSlot, passes, kind]

theorem setpointSlot_clash (c : Cell) (s : State) (passes : cellPasses c 1 = true) (setpoint : c.kind ≠ Kind.setpoint)
    (idle : c.kind ≠ Kind.idle) : setpointSlot c s = sendNode (idleCell 1) (towerClash 1 s) := by
  simp only [setpointSlot, passes, Bool.not_true, Bool.false_eq_true, if_false, if_neg setpoint, if_neg idle]

theorem setpointSlot_failed (c : Cell) (s : State) (fails : cellPasses c 1 = false) :
    setpointSlot c s = sendNode (idleCell 1) s := by
  simp [setpointSlot, fails]

/-! ### The request at a close -/

/-- The count of a close leaves the loss, the request and its decay as they are (R91). -/
theorem quietAtClose_power (s : State) : (quietAtClose s).power.loss = s.power.loss ∧
    (quietAtClose s).power.rEff = s.power.rEff ∧
    (quietAtClose s).power.setpointDecay = s.power.setpointDecay := by
  unfold quietAtClose
  dsimp only
  split <;> exact ⟨rfl, rfl, rfl⟩

/-- A loss that is due raises SETPOINT_LOSS with the request as it stands, and then decays it (R91, R105). -/
theorem setpointLost_due (s : State) (loss : s.power.loss = false) (due : s.power.setpointHold ≤ s.power.quiet) :
    setpointLost s = { raise CauseNo.setpointLoss .none .none (some (unsignedFigure s.power.rEff)) s with
      power := { s.power with loss := true, rEff := s.power.rEff - s.power.setpointDecay } } := by
  unfold setpointLost
  rw [if_pos (by simp [loss, due]), raise_with_power]
  rfl

/-- A loss that stands, or is not due, brings nothing (R91). -/
theorem setpointLost_not_due (s : State) (h : s.power.loss = true ∨ s.power.quiet < s.power.setpointHold) :
    setpointLost s = s := by
  unfold setpointLost
  refine if_neg ?_
  obtain loss | early := h
  · simp [loss]
  · simp [early]

end Sys2Proof.Machine

/-- Settles O8. -/
theorem rejectedTowerHeadOnlyRaises : Obligations.RejectedTowerHeadOnlyRaises := by
  intro c now s port rejected
  rw [← acceptedHead_iff] at rejected
  show Host.Outcome.next (towerPortCell c now s) = _
  rw [towerPortCell_awaiting c now s port, headArrival_rejected c now s rejected]
  unfold rejectHead
  split <;> rfl

/-- Settles O13. -/
theorem awaitTimeoutAndFormatFailure : Obligations.AwaitTimeoutAndFormatFailure := by
  refine ⟨fun now s p port due => ?_, fun a s mode => ?_⟩
  · show Host.Outcome.next (awaitDue now s) = _
    simp only [awaitDue, port, if_pos due]
  · show Host.Outcome.next (inFollowing (formatFailed a) s) = _
    rw [inFollowing, if_pos mode]
    rfl

/-- Settles O7: nothing lapses, so the head is recorded and opens its round on the state of the possible rise. -/
theorem acceptedTowerHeadOpensRound : Obligations.AcceptedTowerHeadOpensRound := by
  intro c now s mode port out passes kind attr last gap u
  have accepted := (acceptedHead_iff c).2 ⟨passes, kind, attr, last⟩
  have sequence : outOfSequence s c = gap := by
    simp only [outOfSequence, gap]
    cases s.ring.lastHead with
    | none => rfl
    | some h => simp [bne, BEq.beq]
  have ring : u.ring = s.ring := by
    simp only [u]
    split
    · exact raise_ring ..
    · rfl
  have estimate : estimateAfter u now = estimateAfter s now := by
    simp only [estimateAfter, ring]
  have opened := openRound_headRecorded c now u
  rw [estimate, ring] at opened
  show Host.Outcome.next (towerPortCell c now s) = _
  rw [towerPortCell_awaiting c now s port, headArrival_following c now s mode accepted]
  unfold followHead
  dsimp only
  rw [lapseRound_of_none s out, sequence]
  exact congrArg Host.Outcome.next opened

/-- Settles O9: the head is recorded alike in all three cases, with the counter that each gives. -/
theorem towerHeadCountsTowardRejoin : Obligations.TowerHeadCountsTowardRejoin := by
  intro c now s mode port passes kind attr last counts
  have accepted := (acceptedHead_iff c).2 ⟨passes, kind, attr, last⟩
  have counted : counts (rejoinAfter s now) := by
    show Host.Outcome.next (towerPortCell c now s) = _
    rw [towerPortCell_awaiting c now s port, headArrival_away c now s mode accepted]
    rfl
  refine ⟨fun h rejoining lastHead gap => ?_, fun h rejoining lastHead gap => ?_, fun first => ?_⟩
  · rwa [rejoinAfter_in_time s now h rejoining lastHead gap] at counted
  · rwa [rejoinAfter_late s now h rejoining lastHead gap] at counted
  · rwa [rejoinAfter_first s now first] at counted

/-- Settles O10. -/
theorem setpointSetsAndLossDecaysRequest : Obligations.SetpointSetsAndLossDecaysRequest := by
  refine ⟨?_, fun s loss due => congrArg Host.Outcome.next (setpointLost_due s loss due),
    fun s h => congrArg Host.Outcome.next (setpointLost_not_due s h), ?_⟩
  · intro c now s p h does
    have slot : exec (.setpointArrival c now) s = .next (setpointSlot c
        (checked 0 c 1 { s with ring := { s.ring with port := portAfter p } })) :=
      congrArg Host.Outcome.next (towerPortCell_forwards c h)
    refine ⟨fun passes kind => ?_, fun passes kind => ?_, fun passes setpoint idle => ?_, fun fails => ?_⟩
    · rw [checked_of_passes 0 c 1 _ passes, setpointSlot_setpoint c _ passes kind] at slot
      exact slot
    · rw [checked_of_passes 0 c 1 _ passes, setpointSlot_idle c _ passes kind] at slot
      exact slot
    · rw [checked_of_passes 0 c 1 _ passes, setpointSlot_clash c _ passes setpoint idle] at slot
      exact slot.trans (congrArg Host.Outcome.next (sendNode_raise_ring (idleCell 1) _ _ _ _ s _ rfl))
    · rw [checked_of_fails 0 c 1 _ fails, setpointSlot_failed c _ fails] at slot
      exact slot.trans (congrArg Host.Outcome.next (sendNode_raise_ring (idleCell 1) _ _ _ _ s _ rfl))
  · intro v p counted
    obtain ⟨loss, rEff, decay⟩ := quietAtClose_power v
    show dispatchAtClose (requestAtClose v) = _
    unfold requestAtClose
    dsimp only
    rw [loss]
    split
    · unfold decayRequest
      rw [rEff, decay]
      rfl
    · rfl

end


section
/-! PROOF. The cells of a forwarded round after its head: node slots, and the request of slots 2 and 3. -/

open Sys2Proof Sys2Proof.Machine

namespace Sys2Proof.Machine

/-! ### Command cells -/

/-- What a command object carries follows from the sections, the nacelle state, the issued references, the yaw, the
pumps and the cooling unit alone (R9). -/
theorem objectCommand_congr {s t : State} (sects : t.sects = s.sects) (nacelle : t.sup.nacelle = s.sup.nacelle)
    (power : t.power = s.power) (yaw : t.yaw = s.yaw) (pumps : t.pumps = s.pumps) (cool : t.cool = s.cool)
    (object : Fin 12) : objectCommand t object = objectCommand s object := by
  simp only [objectCommand, sectCommand, pumpCommand, sects, nacelle, power, yaw, pumps, cool]

/-- A slew is under way in SLEWING and in the SLEW phase of UNWINDING and JOGGING (R117). -/
theorem inSlew_eq (y : Yaw) : inSlew y = decide (y.mode = .slewing ∨
    (y.mode = .unwinding ∨ y.mode = .jogging) ∧ y.phase = .slew) := by
  unfold inSlew
  cases y.mode <;> simp

/-- The brake is applied in the states that stand still and in BRAKING (R117). -/
theorem brakeApplied_eq (m : YawMode) :
    brakeApplied m = (decide (m = .parked ∨ m = .unwindWait ∨ m = .held) || decide (m = .braking)) := by
  cases m <;> rfl

/-- The YAW command cell: its motor groups with the direction, and BRAKE_RELEASE (R117). -/
theorem yawCommand_eq (y : Yaw) : yawCommand y =
    let slewing := decide (y.mode = .slewing ∨ (y.mode = .unwinding ∨ y.mode = .jogging) ∧ y.phase = .slew)
    let still := decide (y.mode = .parked ∨ y.mode = .unwindWait ∨ y.mode = .held)
    ((if slewing then if y.groupB then 3 else 1 else 0) + (if !still && y.turn = .ccw then 4 else 0),
      if still || y.mode = .braking then 0 else 4) := by
  have groups (slew b : Bool) : (if slew then 1 else 0) + (if slew && b then 2 else 0) =
      if slew then if b then 3 else 1 else 0 := by
    cases slew <;> cases b <;> rfl
  simp only [yawCommand, groups, inSlew_eq, brakeApplied_eq]
  cases y.mode <;> rfl

/-- What a command object carries is what its rule says (R9, R85, R117, R147). -/
theorem objectCommand_leaves (s : State) (object : Fin 12) (leaves : Nat → Nat → Prop)
    (h : leaves (objectCommand s object).1 (objectCommand s object).2) : ObjectLeaves s object leaves := by
  refine ⟨fun i hi => ?_, ?_, fun j hj => ?_, ?_, ?_⟩
  · have section_ : objectCommand s object = sectCommand s i := by
      rw [objectCommand, if_pos (by omega), fin_ofNat_of_eq i _ hi]
    rw [section_] at h
    refine ⟨fun online outside => ?_, fun online test => ?_, fun isolated => ?_, fun idle => ?_⟩
    · simpa only [sectCommand, online, if_neg outside] using h
    · simpa only [sectCommand, online, if_pos test] using h
    · simpa only [sectCommand, isolated] using h
    · obtain held | absent := idle
      · simpa only [sectCommand, held] using h
      · simpa only [sectCommand, absent] using h
  · rintro rfl
    have yaw : objectCommand s 6 = yawCommand s.yaw := rfl
    rw [yaw, yawCommand_eq] at h
    exact h
  · have pump : objectCommand s object = (pumpCommand s j, 0) := by
      rw [objectCommand, if_neg (by omega), if_neg (by omega), if_pos (by omega),
        fin_ofNat_of_eq j _ (by omega)]
    rw [pump] at h
    exact h
  · rintro rfl
    exact h
  · rintro rfl
    exact h

/-! ### Slots 2 and 3 -/

/-- Slot 2 by what its cell is (R8). -/
theorem requestSlotA_held (c : Cell) (s : State) (passes : cellPasses c 2 = true) (kind : c.kind = Kind.mreqA) :
    requestSlotA c s = sendNode (idleCell 2) { s with ring := { s.ring with heldRequest := some c } } := by
  simp [requestSlotA, passes, kind]

theorem requestSlotA_idle (c : Cell) (s : State) (passes : cellPasses c 2 = true) (kind : c.kind = Kind.idle) :
    requestSlotA c s = sendNode (idleCell 2) s := by
  simp [requestSlotA, passes, kind]

theorem requestSlotA_clash (c : Cell) (s : State) (passes : cellPasses c 2 = true) (request : c.kind ≠ Kind.mreqA)
    (idle : c.kind ≠ Kind.idle) : requestSlotA c s = sendNode (idleCell 2) (towerClash 2 s) := by
  simp only [requestSlotA, passes, Bool.not_true, Bool.false_eq_true, if_false, if_neg request, if_neg idle]

theorem requestSlotA_failed (c : Cell) (s : State) (fails : cellPasses c 2 = false) :
    requestSlotA c s = sendNode (idleCell 2) s := by
  simp [requestSlotA, fails]

/-- Slot 3 with a request held, by whether its MREQ_B passes (R8). -/
theorem requestSlotB_request (a c : Cell) (s : State) (held : s.ring.heldRequest = some a)
    (passes : cellPasses c 3 = true) (kind : c.kind = Kind.mreqB) : requestSlotB c s =
      sendNode (idleCell 3) (requestArrival a c { s with ring := { s.ring with heldRequest := none } }) := by
  simp [requestSlotB, held, passes, kind]

theorem requestSlotB_failure (a c : Cell) (s : State) (held : s.ring.heldRequest = some a)
    (fails : ¬ (cellPasses c 3 = true ∧ c.kind = Kind.mreqB)) : requestSlotB c s =
      sendNode (idleCell 3) (formatFailed a { s with ring := { s.ring with heldRequest := none } }) := by
  simp only [requestSlotB, held]
  rw [if_neg (by simpa using fails)]

theorem requestSlotB_none (c : Cell) (s : State) (free : s.ring.heldRequest = none) :
    requestSlotB c s = sendNode (idleCell 3) s := by
  simp [requestSlotB, free]

/-- Slots 4 to 8 of the downstream leg are forwarded as received (R6). -/
theorem forwardSlot_reserved (c : Cell) (pos : Nat) (s : State) (low : 4 ≤ pos) (high : pos ≤ 8) :
    forwardSlot c pos s = sendNode c s := by
  interval_cases pos <;> rfl

/-! ### Requests from their cells -/

/-- A claimed authority exists exactly for the codes 1 to 3 (R174). -/
theorem claimedAuthority_eq_none_iff (code : Octet) :
    claimedAuthority code = none ↔ code.toNat < 1 ∨ 3 < code.toNat := by
  have named (n : Octet) : code = n ↔ code.toNat = n.toNat := BitVec.toNat_inj.symm
  simp only [claimedAuthority, named, BitVec.reduceToNat]
  split_ifs <;> simp only [true_iff, false_iff] <;> omega

/-- A request without an authority that exists is a format failure, whatever its operation (R174). -/
theorem requestArrival_unclaimed (a b : Cell) (s : State) (h : claimedAuthority a.ext = none) :
    requestArrival a b s = formatFailed a s := by
  have refused (f : Authority → State → State) :
      withAuthority (requestTable a) (requestArgs a b) f s = formatFailed a s := by
    simp only [withAuthority, requestArgs, h]
    rfl
  unfold requestArrival
  dsimp only
  split
  · exact refused _
  · exact refused _
  · exact refused _
  · split <;> exact refused _
  · exact refused _
  · rfl

/-- A request whose operation does not exist is a format failure (R174). -/
theorem requestArrival_no_operation (a b : Cell) (s : State) (h : a.attr.toNat < 1 ∨ 5 < a.attr.toNat) :
    requestArrival a b s = formatFailed a s := by
  unfold requestArrival
  dsimp only
  split <;> first | omega | rfl

/-- The commands in the order of their numbers (R184). -/
def commandRows : List (ReqArgs → Instr) :=
  [.start, .stop, .restart, .testEnter, .testExit, .sectionRelease, .sectionHold, .yawResume, .yawUnwind, .yawJog,
    .injectValue, .injectCause, .releaseForce]

/-- The row of a command number is the common handling of that number's command (R184). -/
theorem commandRows_spec (n : Nat) (command : ReqArgs → Instr) (row : commandRows[n]? = some command) (no : Octet)
    (number : no.toNat = n + 1) (r : ReqArgs) : ∃ c, commandOf no r = some c ∧
      ∀ s, exec (command r) s = .next (inFollowing (commandRequest no c r) s) := by
  have bound : n < 13 := (List.getElem?_eq_some_iff.1 row).1
  obtain rfl : no = BitVec.ofNat 8 (n + 1) := by
    rw [← number]
    simp
  interval_cases n <;>
  · cases row
    exact ⟨_, rfl, fun _ => rfl⟩

/-- A COMMAND of a number outside 1..13 has no command (R184). -/
theorem commandOf_outside (no : Octet) (r : ReqArgs) (h : no.toNat < 1 ∨ 13 < no.toNat) : commandOf no r = none := by
  unfold commandOf
  split <;> first | omega | rfl

/-- A COMMAND of such a number is refused REFUSED_UNKNOWN once its authority exists (R174, R184). -/
theorem requestArrival_unknown (a b : Cell) (s : State) (op : a.attr = 4)
    (number : (requestTable a).toNat < 1 ∨ 13 < (requestTable a).toNat) (claims : claimedAuthority a.ext ≠ none) :
    requestArrival a b s = refuse (requestTable a) (requestArgs a b) .refusedUnknown s := by
  obtain ⟨level, claimed⟩ := Option.ne_none_iff_exists'.1 claims
  have outside := commandOf_outside (requestTable a) (requestArgs a b) number
  unfold requestArrival
  rw [op]
  dsimp only [BitVec.reduceToNat]
  rw [outside]
  simp only [withAuthority, requestArgs, claimed]

end Sys2Proof.Machine

/-- Settles O11. -/
theorem downstreamNodeSlotForwardsOrCommands : Obligations.DownstreamNodeSlotForwardsOrCommands := by
  intro c now pos s p h node u sent
  let v : State := { u with ring := { s.ring with port := portAfter p } }
  have slot : exec (.downstreamCell c now) s = .next (nodeSlotDown c pos v) := by
    show Host.Outcome.next (towerPortCell c now s) = _
    rw [towerPortCell_forwarding c h, forwardSlot_node c pos _ node]
  have plan : v.plan = s.plan := checked_plan ..
  refine ⟨fun free => ?_, fun k on at_ alone => objectCommand_leaves s _ _ ?_⟩
  · rw [slot, nodeSlotDown, planFor_eq_none v pos (by rwa [plan])]
    rfl
  · have cell : commandCell v k pos = writeCell Kind.command 0 pos
        (BitVec.ofNat 32 (objectCommand s s.plan[k].object).1)
        (BitVec.ofNat 8 (objectCommand s s.plan[k].object).2) := by
      rw [commandCell, plan, objectCommand_congr (s := s) (t := v) (checked_sects ..)
        (congrArg Supervisor.nacelle (checked_sup ..)) (checked_power ..) (checked_yaw ..) (checked_pumps ..)
        (checked_cool ..)]
    rw [slot, nodeSlotDown, planFor_eq_some v pos k (by rwa [plan]) (by rwa [plan]) (by rwa [plan]), ← cell]
    rfl

/-- Settles O12: slot 3 hands over a request whose operation names the row that it acts as. -/
theorem requestCellsActAsRequestRow : Obligations.RequestCellsActAsRequestRow := by
  intro a c now pos s p h u free does
  have slot : exec (.downstreamCell c now) s = .next (forwardSlot c pos (checked 0 c pos u)) :=
    congrArg Host.Outcome.next (towerPortCell_forwards c h)
  have following : s.ring.mode = .following := h.1
  refine ⟨?_, ?_, ?_, ?_⟩
  · rintro rfl
    have slot : exec (.downstreamCell c now) s = .next (requestSlotA c (checked 0 c 2 u)) := slot
    refine ⟨fun passes kind => ?_, fun passes kind => ?_, fun passes request idle => ?_, fun fails => ?_⟩
    · rwa [checked_of_passes 0 c 2 _ passes, requestSlotA_held c _ passes kind] at slot
    · rwa [checked_of_passes 0 c 2 _ passes, requestSlotA_idle c _ passes kind] at slot
    · rwa [checked_of_passes 0 c 2 _ passes, requestSlotA_clash c _ passes request idle] at slot
    · rwa [checked_of_fails 0 c 2 _ fails, requestSlotA_failed c _ fails] at slot
  · rintro rfl held args acts formatFailure answered commands
    have slot : exec (.downstreamCell c now) s = .next (requestSlotB c (checked 0 c 3 u)) := slot
    have heldNow : (checked 0 c 3 u).ring.heldRequest = some a := by
      rw [checked_ring]
      exact held
    refine ⟨fun passes kind => ?_, fun fails => ?_⟩
    · rw [requestSlotB_request a c _ heldNow passes kind, checked_of_passes 0 c 3 _ passes] at slot
      have request (i : Instr) (f : State → State) (row : exec i free = .next (inFollowing f free))
          (same : requestArrival a c free = f free) : acts i := by
        refine ⟨f free, ?_, ?_⟩
        · rw [row, inFollowing, if_pos following]
        · rw [← same]
          exact slot
      refine ⟨fun op => ?_, fun op => ?_, fun op => ?_, fun n command row op number => ?_, fun op => ?_,
        fun bad => ?_, fun op number low high => ?_⟩
      · exact request _ (readRequest (requestTable a) args) rfl (by rw [requestArrival, op]; rfl)
      · exact request _ (writeRequest (requestTable a) args) rfl (by rw [requestArrival, op]; rfl)
      · exact request _ (clearRequest (requestTable a) args) rfl (by rw [requestArrival, op]; rfl)
      · obtain ⟨d, named, acted⟩ := commandRows_spec n command row (requestTable a) number args
        exact request _ (commandRequest (requestTable a) d args) (acted free) (by
          simp only [requestArrival, op]
          show (match commandOf (requestTable a) args with | some c => _ | none => _) = _
          rw [named])
      · exact request _ (statusRequest (requestTable a) args) rfl (by rw [requestArrival, op]; rfl)
      · have failed : requestArrival a c free = formatFailed a free := by
          by_cases operation : a.attr.toNat < 1 ∨ 5 < a.attr.toNat
          · exact requestArrival_no_operation a c free operation
          · exact requestArrival_unclaimed a c free ((claimedAuthority_eq_none_iff _).2 (by omega))
        rw [show requestArrival a c _ = formatFailed a free from failed] at slot
        exact slot
      · have exists_ : claimedAuthority a.ext ≠ none := fun e => by
          have := (claimedAuthority_eq_none_iff _).1 e
          omega
        rw [show requestArrival a c _ = refuse (requestTable a) args .refusedUnknown free from
          requestArrival_unknown a c free op number exists_] at slot
        exact slot
    · have freed : checked 0 c 3 free = { checked 0 c 3 u with ring := free.ring } :=
        checked_with_ring 0 c 3 u free.ring rfl
      rw [requestSlotB_failure a c _ heldNow fails, checked_ring] at slot
      show exec (.downstreamCell c now) s = .next (sendNode (idleCell 3) (formatFailed a (checked 0 c 3 free)))
      rw [freed]
      exact slot
  · rintro rfl none_
    have slot : exec (.downstreamCell c now) s = .next (requestSlotB c (checked 0 c 3 u)) := slot
    rwa [requestSlotB_none c _ (by rw [checked_ring]; exact none_)] at slot
  · intro low high
    rwa [forwardSlot_reserved c pos _ low high] at slot

end


section
/-! PROOF. Node-in: the returning head, the slots that are written or forwarded, and the slots that the channel unit
takes. -/

open Sys2Proof Sys2Proof.Machine

namespace Sys2Proof.Machine

/-! ### The returning head -/

/-- What makes a cell the returning head of the round out (R10). -/
theorem isReturningHead_iff (o : RoundOut) (c : Cell) : isReturningHead o c = true ↔
    cellPasses c 0 = true ∧ c.kind = Kind.head ∧ c.attr = (if o.originator = .tower then 1 else 2) ∧
      roundNumber c = o.number := by
  have code : originatorCode o.originator = if o.originator = .tower then 1 else 2 := by
    cases o.originator <;> rfl
  simp only [isReturningHead, Bool.and_eq_true, decide_eq_true_iff, beq_iff_eq, and_assoc, code]

/-- Before the head has returned, a cell is the returning head or changes nothing (R10). -/
theorem nodeInCell_awaiting (c : Cell) (s : State) (o : RoundOut) (out : s.ring.roundOut = some o)
    (awaiting : o.headReturned = false) :
    nodeInCell c s = if isReturningHead o c then headReturned o c s else s := by
  simp only [nodeInCell, out, awaiting, Bool.false_eq_true, if_false]

/-! ### Slots of the upstream leg -/

/-- Slots 1 to 3 of the upstream leg are forwarded (R10). -/
theorem upstreamSlot_forward (c : Cell) (pos : Nat) (s : State) (h : pos ≤ 3) :
    upstreamSlot c pos s = sendTower c s := by
  unfold upstreamSlot
  rw [if_pos h]

/-- Slots 4 to 8 of the upstream leg are written (R11). -/
theorem upstreamSlot_reserved (c : Cell) (pos : Nat) (s : State) (low : 4 ≤ pos) (high : pos ≤ 8) :
    upstreamSlot c pos s = reservedSlot pos s := by
  unfold upstreamSlot
  rw [if_neg (by omega), if_pos high]

/-- An enabled command-plan entry that names the slot makes it a command-plan slot (R9). -/
theorem planFor_ne_none (s : State) (pos : Nat) (k : Fin 16) (on : s.plan[k].enable = true)
    (at_ : s.plan[k].slot = pos) : planFor s pos ≠ none := by
  intro h
  simp only [planFor, lowestIdx, List.find?_eq_none] at h
  exact absurd (by simp only [on, at_, decide_true, Bool.and_self]) (h k (List.mem_finRange k))

/-- A node slot that is no command-plan slot is handed to the channel unit (R10). -/
theorem nodeSlotUp_node (c : Cell) (pos : Nat) (s : State) (plan : planFor s pos = none) :
    nodeSlotUp c pos s = sendTower c (handOver (slotContent c pos) pos s) := by
  simp only [nodeSlotUp, plan]

/-- A command-plan slot clashes with a cell that passes its check and is of another kind than COMMAND (R10). -/
theorem nodeSlotUp_plan (c : Cell) (pos : Nat) (s : State) (plan : planFor s pos ≠ none) :
    nodeSlotUp c pos s = sendTower c (if cellPasses c pos = true ∧ c.kind ≠ Kind.command then
      raise CauseNo.slotClash .none .none (some (unsignedFigure (256 + pos))) s else s) := by
  obtain ⟨k, some_⟩ := Option.ne_none_iff_exists'.1 plan
  simp only [nodeSlotUp, some_, Bool.and_eq_true, decide_eq_true_iff]
  rfl

/-- What a node slot's cell is (R2, R25). -/
theorem slotContent_eq (c : Cell) (pos : Nat) : slotContent c pos =
    if cellPasses c pos = false then .absent
    else if c.kind = Kind.sample then .sample (c.payload.extractLsb' 0 16) (decide (c.ext = 1))
    else if c.kind = Kind.idle then .idle else .wrongKind := by
  unfold slotContent
  cases cellPasses c pos <;> rfl

/-! ### The report of slots 6 and 7 -/

/-- With a record to drain, slot 6 carries its first cell (R11, R160). -/
theorem reportSlotA_record (s : State) (x : FaultRecord) (rest : List FaultRecord)
    (queue : s.reports.queue = x :: rest) (mode : s.ring.mode = .following) (hold : s.sup.mode.reportHold = false) :
    reportSlotA s = sendTower (reportCellA x) { s with reports := { s.reports with delivering := true } } := by
  have drained : drains s = true := by simp [drains, mode, hold, queue]
  simp only [reportSlotA, if_pos drained, queue, List.head?_cons, Option.map_some, Option.getD_some]

/-- With none, or with draining held or away from FOLLOWING, slot 6 is IDLE (R11). -/
theorem reportSlotA_idle (s : State)
    (h : s.reports.queue = [] ∨ s.ring.mode ≠ .following ∨ s.sup.mode.reportHold = true) :
    reportSlotA s = sendTower (idleCell 6) s := by
  have not_drained : ¬ drains s = true := by
    unfold drains
    obtain empty | away | hold := h
    · simp [empty]
    · simp [away]
    · simp [hold]
  rw [reportSlotA, if_neg not_drained]

/-- The record in delivery leaves with its second cell in slot 7 (R11, R160). -/
theorem reportSlotB_record (s : State) (x : FaultRecord) (rest : List FaultRecord)
    (queue : s.reports.queue = x :: rest) (delivering : s.reports.delivering = true) : reportSlotB s =
      sendTower (reportCellB x) { s with reports := { s.reports with queue := rest, delivering := false } } := by
  simp only [reportSlotB, if_pos delivering, recordLeaves, queue, List.head?_cons, Option.map_some,
    Option.getD_some, List.tail_cons]

theorem reportSlotB_idle (s : State) (delivering : s.reports.delivering = false) :
    reportSlotB s = sendTower (idleCell 7) s := by
  rw [reportSlotB, if_neg (by simp [delivering])]

/-! ### The held low half -/

theorem settleHalf_none (keep : LowHalf → Bool) (s : State) (empty : s.lowHalf = none) : settleHalf keep s = s := by
  simp only [settleHalf, empty]

theorem settleHalf_kept (keep : LowHalf → Bool) (s : State) (h : LowHalf) (held : s.lowHalf = some h)
    (kept : keep h = true) : settleHalf keep s = s := by
  simp only [settleHalf, held, if_pos kept]

/-- A half that the slot does not complete is discarded with PAIR_INCOMPLETE at its odd slot (R27). -/
theorem settleHalf_discarded (keep : LowHalf → Bool) (s : State) (h : LowHalf) (held : s.lowHalf = some h)
    (lost : keep h = false) : settleHalf keep s = discardHalf h (h.slot + 1) s := by
  simp only [settleHalf, held, lost, Bool.false_eq_true, if_false]

/-! ### Handing a slot over, by its window -/

section owned

variable (s : State) (pos : Nat) (i : Fin 32) (ch : Fin 128) (x : SlotContent)

theorem handOver_unowned (owner : ownerOf s pos = none) : handOver x pos s = settleHalf (fun _ => false) s := by
  simp only [handOver, owner]

/-- A slot of a WIDE window (R22, R25). -/
theorem handOver_wide (owner : ownerOf s pos = some i) (width : s.windows[i].width = .wide)
    (fed : ch.val = s.windows[i].firstChannel.val + (pos - s.windows[i].base)) :
    handOver x pos s = wideSlot ch x pos (settleHalf (fun _ => false) s) := by
  have channel : Fin.ofNat 128 (fedChannel s.windows[i] pos) = ch := by
    refine fin_ofNat_of_eq ch _ ?_
    rw [fedChannel, width, fed, slotsPerChannel, Nat.div_one]
  simp only [handOver, owner, width, channel]

/-- The even slot of a NARROW pair (R22, R26). -/
theorem handOver_even (owner : ownerOf s pos = some i) (width : s.windows[i].width = .narrow)
    (even : (pos - s.windows[i].base) % 2 = 0)
    (fed : ch.val = s.windows[i].firstChannel.val + (pos - s.windows[i].base) / 2) :
    handOver x pos s = evenSlot ch x pos (settleHalf (fun _ => false) s) := by
  have channel : Fin.ofNat 128 (fedChannel s.windows[i] pos) = ch := by
    refine fin_ofNat_of_eq ch _ ?_
    rw [fedChannel, width, fed, slotsPerChannel]
  simp only [handOver, owner, width, channel, if_pos even]

/-- The odd slot of a NARROW pair (R22, R27). -/
theorem handOver_odd (owner : ownerOf s pos = some i) (width : s.windows[i].width = .narrow)
    (odd : (pos - s.windows[i].base) % 2 = 1)
    (fed : ch.val = s.windows[i].firstChannel.val + (pos - s.windows[i].base - 1) / 2) :
    handOver x pos s = oddSlot ch x pos (settleHalf (fun h => completes h ch pos) s) := by
  have channel : Fin.ofNat 128 (fedChannel s.windows[i] pos) = ch := by
    refine fin_ofNat_of_eq ch _ ?_
    rw [fedChannel, width, fed, slotsPerChannel]
    omega
  have not_even : ¬ (pos - s.windows[i].base) % 2 = 0 := by omega
  simp only [handOver, owner, width, channel, if_neg not_even]

/-- A slot does the same once the half that it does not complete has been discarded (R27). -/
theorem handOver_discarded (h : LowHalf) (held : s.lowHalf = some h)
    (apart : ∀ i, ownerOf s pos = some i → s.windows[i].width = .narrow → (pos - s.windows[i].base) % 2 = 1 →
      pos ≠ h.slot + 1) : handOver x pos s = handOver x pos (discardHalf h (h.slot + 1) s) := by
  have windows : (discardHalf h (h.slot + 1) s).windows = s.windows := (BlockKept.discardHalf ..).windows
  have empty : (discardHalf h (h.slot + 1) s).lowHalf = none := by simp [discardHalf, pairIncomplete]
  have settled (keep : LowHalf → Bool) (lost : keep h = false) :
      settleHalf keep s = settleHalf keep (discardHalf h (h.slot + 1) s) := by
    rw [settleHalf_discarded keep s h held lost, settleHalf_none keep _ empty]
  have owners : ownerOf (discardHalf h (h.slot + 1) s) pos = ownerOf s pos := by
    simp only [ownerOf, windows]
  unfold handOver
  rw [owners]
  cases owner : ownerOf s pos with
  | none => exact settled (fun _ => false) rfl
  | some i =>
    dsimp only
    rw [windows]
    cases width : s.windows[i].width with
    | wide => exact congrArg (wideSlot _ x pos) (settled (fun _ => false) rfl)
    | narrow =>
      dsimp only
      split
      · exact congrArg (evenSlot _ x pos) (settled (fun _ => false) rfl)
      · rename_i odd
        refine congrArg (oddSlot _ x pos) (settled _ ?_)
        simp [completes, apart i owner width (by omega)]

end owned

/-- A wrong kind in the odd slot clashes and counts as a missing half (R25, R27). -/
theorem oddSlot_wrongKind_held (ch : Fin 128) (pos : Nat) (s : State) (h : LowHalf) (held : s.lowHalf = some h) :
    oddSlot ch .wrongKind pos s = discardHalf h pos (wrongKind pos s) := by
  simp only [oddSlot, wrongKind, raise_lowHalf, held]

theorem oddSlot_wrongKind_bare (ch : Fin 128) (pos : Nat) (s : State) (empty : s.lowHalf = none) :
    oddSlot ch .wrongKind pos s = wrongKind pos s := by
  simp only [oddSlot, wrongKind, raise_lowHalf, empty]

/-- The low octet of a code (R26). -/
theorem extractLow_eq (code : Half) : code.extractLsb' 0 8 = BitVec.ofNat 8 code.toNat := by
  apply BitVec.eq_of_toNat_eq
  simp

/-- The two halves of a pair make the code high octet × 256 + low octet (R27). -/
theorem joinHalves_eq (code : Half) (low : Octet) :
    code.extractLsb' 0 8 ++ low = BitVec.ofNat 16 (256 * (code.toNat % 256) + low.toNat) := by
  apply BitVec.eq_of_toNat_eq
  rw [BitVec.toNat_append, ← Nat.shiftLeft_add_eq_or_of_lt low.isLt]
  simp only [BitVec.extractLsb'_toNat, BitVec.toNat_ofNat, Nat.shiftRight_zero, Nat.shiftLeft_eq]
  have := low.isLt
  omega

end Sys2Proof.Machine

/-- Settles O14. -/
theorem returningHeadStartsUpstreamLeg : Obligations.ReturningHeadStartsUpstreamLeg := by
  intro c s o out awaiting code
  have arrival : exec (.returningHead c) s = .next (if isReturningHead o c then headReturned o c s else s) :=
    congrArg Host.Outcome.next (nodeInCell_awaiting c s o out awaiting)
  refine ⟨fun head => ?_, fun other => ?_⟩
  · rw [if_pos ((isReturningHead_iff o c).2 head)] at arrival
    exact arrival
  · rw [if_neg (mt (isReturningHead_iff o c).1 other)] at arrival
    exact arrival

/-- Settles O15. -/
theorem reservedSlotsCarryReplyReportStatus : Obligations.ReservedSlotsCarryReplyReportStatus := by
  intro c s o pos h long sent u
  let v : State := { u with ring := { s.ring with roundOut := some { o with nextPos := pos + 1 } } }
  have slot (low : 4 ≤ pos) (high : pos ≤ 8) : exec (.reservedSlotWrite c) s = .next (reservedSlot pos v) := by
    show Host.Outcome.next (nodeInCell c s) = _
    rw [nodeInCell_returning c h (by omega), upstreamSlot_reserved c pos _ low high]
  have reply : v.reply = s.reply := checked_reply ..
  have sup : v.sup = s.sup := checked_sup ..
  have power : v.power = s.power := checked_power ..
  have delivering : v.reports.delivering = s.reports.delivering := checked_delivering ..
  refine ⟨?_, ?_, ?_, ?_, ?_, ?_, ?_⟩
  · rintro rfl
    rw [slot (by decide) (by decide), reservedSlot, replySlotA, reply]
    cases s.reply <;> rfl
  · rintro rfl
    rw [slot (by decide) (by decide), reservedSlot, replySlotB, reply]
    cases s.reply <;> rfl
  · rintro rfl x rest queue mode hold
    rw [slot (by decide) (by decide), reservedSlot, reportSlotA_record v x rest queue mode (by rw [sup]; exact hold)]
    rfl
  · rintro rfl idle
    rw [slot (by decide) (by decide), reservedSlot, reportSlotA_idle v (by rw [sup]; exact idle)]
    rfl
  · rintro rfl x rest queue delivers
    rw [slot (by decide) (by decide), reservedSlot, reportSlotB_record v x rest queue (by rwa [delivering])]
    rfl
  · rintro rfl idle
    rw [slot (by decide) (by decide), reservedSlot, reportSlotB_idle v (by rwa [delivering])]
    rfl
  · rintro rfl
    have cell : statusCell v = writeCell Kind.status (BitVec.ofNat 4 (ringCode s.ring.mode)) 8
        (BitVec.ofNat 16 s.power.ceiling ++ BitVec.ofNat 8 (nacelleCode s.sup.nacelle) ++
          BitVec.ofNat 8 (causeCode (topCause u))) (BitVec.ofNat 8 (statusFlags u)) := by
      rw [statusCell, power, sup]
      rfl
    rw [slot (by decide) (by decide), reservedSlot, cell]
    · rfl
    all_goals decide

/-- Settles O16. -/
theorem upstreamCellsReadByNothingAreForwarded : Obligations.UpstreamCellsReadByNothingAreForwarded := by
  intro c s o pos h inside sent
  let v : State := { checked 1 c pos s with ring := { s.ring with roundOut := some { o with nextPos := pos + 1 } } }
  have slot : nodeInCell c s = upstreamSlot c pos v := nodeInCell_returning c h inside
  have plan : v.plan = s.plan := checked_plan ..
  refine ⟨fun _ high => ?_, fun node half windows free => ?_, fun k node on at_ => ?_⟩
  · show Host.Outcome.next (nodeInCell c s) = _
    rw [slot, upstreamSlot_forward c pos v high]
    rfl
  · have unread : handOver (slotContent c pos) pos v = v := by
      have mapped : v.windows = s.windows := checked_windows ..
      rw [handOver_unowned v pos _ (ownerOf_eq_none v pos (by rw [mapped]; exact windows)),
        settleHalf_none _ v ((checked_lowHalf ..).trans half)]
    show Host.Outcome.next (nodeInCell c s) = _
    rw [slot, upstreamSlot_node c pos v node, nodeSlotUp_node c pos v (planFor_eq_none v pos (by rwa [plan])),
      unread]
    rfl
  · have planned : nodeInCell c s = sendTower c (if cellPasses c pos = true ∧ c.kind ≠ Kind.command then
        raise CauseNo.slotClash .none .none (some (unsignedFigure (256 + pos))) v else v) := by
      rw [slot, upstreamSlot_node c pos v node,
        nodeSlotUp_plan c pos v (planFor_ne_none v pos k (by rwa [plan]) (by rwa [plan]))]
    refine ⟨fun passes kind => ?_, fun quiet => ?_⟩
    · rw [if_pos ⟨passes, kind⟩, sendTower_raise] at planned
      exact congrArg Host.Outcome.next planned
    · have no_clash : ¬ (cellPasses c pos = true ∧ c.kind ≠ Kind.command) := by
        rintro ⟨passes, kind⟩
        exact quiet.elim (fun fails => absurd passes (by simp [fails])) kind
      rw [if_neg no_clash] at planned
      exact congrArg Host.Outcome.next planned

/-- Settles O19. -/
theorem narrowPairJoinsItsHalves : Obligations.NarrowPairJoinsItsHalves := by
  refine ⟨fun c s o pos h node inside free => ?_, fun s pos h x held apart => ?_, ?_, ?_⟩
  · show Host.Outcome.next (nodeInCell c s) = _
    rw [nodeInCell_returning c h inside, upstreamSlot_node c pos _ node,
      nodeSlotUp_node c pos _ (planFor_eq_none _ pos (by rw [checked_plan]; exact free)), slotContent_eq]
  · exact handOver_discarded s pos x h held apart
  · intro s pos code g empty clash quiet
    have settled (keep : LowHalf → Bool) : settleHalf keep s = s := settleHalf_none keep s empty
    refine ⟨fun owner x => ?_, fun i ch owner => ⟨fun width fed => ?_, fun width even fed => ?_⟩⟩
    · rw [handOver_unowned s pos x owner, settled]
    · have wide (x : SlotContent) : handOver x pos s = wideSlot ch x pos s := by
        rw [handOver_wide s pos i ch x owner width fed, settled]
      exact ⟨wide _, wide _, wide _, wide _⟩
    · have even (x : SlotContent) : handOver x pos s = evenSlot ch x pos s := by
        rw [handOver_even s pos i ch x owner width even fed, settled]
      refine ⟨?_, even _, even _, even _⟩
      rw [even, evenSlot, extractLow_eq]
  · intro s pos i ch low code g1 g2 owner width odd fed held bare clash incomplete
    have first : pos - 1 + 1 = pos := by omega
    have onHeld (x : SlotContent) : handOver x pos held = oddSlot ch x pos held := by
      rw [handOver_odd held pos i ch x owner width odd fed, settleHalf_kept _ held _ rfl]
      simp [completes, first]
    have onBare (x : SlotContent) : handOver x pos bare = oddSlot ch x pos bare := by
      rw [handOver_odd bare pos i ch x owner width odd fed, settleHalf_none _ bare rfl]
    refine ⟨?_, onHeld _, onHeld _, ?_, onBare _, onBare _, onBare _, ?_⟩
    · rw [onHeld, Bool.and_comm, ← joinHalves_eq]
      rfl
    · have clashed : { raise 5 .none .none (some (unsignedFigure (256 + pos))) held with lowHalf := none } = clash :=
        (raise_with_lowHalf _ _ _ _ held none).symm
      rw [onHeld, oddSlot_wrongKind_held ch pos held _ rfl, ← clashed]
      rfl
    · rw [onBare, oddSlot_wrongKind_bare ch pos bare rfl]
      rfl

end


section
/-! PROOF. Round closes, the node-ring break, and the ring's states. -/

open Sys2Proof Sys2Proof.Machine

namespace Sys2Proof.Machine

/-! ### Rejoining -/

/-- What a close does to the ring's state when no round is out (R17). -/
theorem rejoinComplete_eq (s : State) (out : s.ring.roundOut = none) : rejoinComplete s =
    let back : Bool := decide (s.ring.mode = .rejoining ∧ 16 ≤ s.ring.rejoin)
    { s with ring := { s.ring with
        mode := if back then .following else s.ring.mode
        rejoin := if back then 0 else s.ring.rejoin
        towerTimer := if back then (s.ring.lastHead.map (·.time)).getD s.ring.towerTimer
          else s.ring.towerTimer } } := by
  by_cases back : s.ring.mode = .rejoining ∧ 16 ≤ s.ring.rejoin
  · obtain ⟨mode, count⟩ := back
    rw [rejoinComplete, if_pos ⟨mode, count, out⟩]
    simp only [mode, count, and_self, decide_true, if_true]
    cases s.ring.lastHead <;> rfl
  · have stays : ¬ (s.ring.mode = .rejoining ∧ Config.rejoinHeads ≤ s.ring.rejoin ∧ s.ring.roundOut = none) :=
      fun h => back ⟨h.1, h.2.1⟩
    simp only [rejoinComplete, if_neg stays, back, decide_false, Bool.false_eq_true, if_false]

/-! ### Closes -/

/-- The blocks do their close work one after another in some order, with the start of the break among them when it is
due (R12, R14, R94). -/
theorem blocksClose_order (s : State) : ∃ (order : List Block) (choices : List Nat) (choiceNo : Nat),
    order.Perm ([.channels, .sections, .power, .yaw, .cooling] ++ if breakDue s then [.ringBreak] else []) ∧
      blocksClose s =
        order.foldl (fun v b => blockClose b v) { s with choices := choices, choiceNo := choiceNo } :=
  inOpenOrder_eq_foldl _ _ _

/-- A close by return in the ring interface's counters (R12, R14): the round out is cleared and counted, the lapse
counter goes to 0, and a return under a break condition counts and ends it at 16. -/
theorem ringBreakEnd_returnCounted (s : State) : ringBreakEnd (returnCounted (roundCleared s)) =
    let n := s.ring.returns + 1
    { s with
      ring := { s.ring with
        roundOut := none, extCount := s.ring.extCount + 1, lapses := 0
        broken := s.ring.broken && decide (n < 16)
        returns := if s.ring.broken then (if n < 16 then n else 0) else s.ring.returns }
      reply := none
      reports := { s.reports with delivering := false } } := by
  unfold ringBreakEnd returnCounted roundCleared
  dsimp only
  by_cases broken : s.ring.broken = true
  · by_cases before : s.ring.returns + 1 < 16
    · simp [broken, before, show ¬ Config.breakReturns ≤ s.ring.returns + 1 from Nat.not_le.2 before]
    · simp [broken, before, show Config.breakReturns ≤ s.ring.returns + 1 from Nat.not_lt.1 before]
  · simp [broken]

/-- The ring after a close by return of the round whose tail is `c` (R12, R14, R17). -/
def ringReturned (c : Cell) (r : Ring) : Ring :=
  let n := r.returns + 1
  let back : Bool := decide (r.mode = .rejoining ∧ 16 ≤ r.rejoin)
  { r with
    mode := if back then .following else r.mode
    rejoin := if back then 0 else r.rejoin
    towerTimer := if back then (r.lastHead.map (·.time)).getD r.towerTimer else r.towerTimer
    roundOut := none, extCount := r.extCount + 1, lapses := 0
    towerOut := r.towerOut ++ [c]
    broken := r.broken && decide (n < 16)
    returns := if r.broken then (if n < 16 then n else 0) else r.returns }

/-- A close by return: the ring interface's part on the forwarded tail, and then the blocks (R12). -/
theorem closeByReturn_sendTower (c : Cell) (s : State) : closeByReturn (sendTower c s) =
    blocksClose { s with
      ring := ringReturned c s.ring, reply := none, reports := { s.reports with delivering := false } } := by
  unfold closeByReturn
  rw [ringBreakEnd_returnCounted, rejoinComplete_eq _ rfl]
  rfl

/-- The ring after a lapse, but for a break that begins (R13, R17). -/
def ringLapsed (r : Ring) : Ring :=
  let back : Bool := decide (r.mode = .rejoining ∧ 16 ≤ r.rejoin)
  { r with
    mode := if back then .following else r.mode
    rejoin := if back then 0 else r.rejoin
    towerTimer := if back then (r.lastHead.map (·.time)).getD r.towerTimer else r.towerTimer
    roundOut := none, extCount := r.extCount + 1, lapses := r.lapses + 1, returns := 0 }

/-- The state of a lapse before the blocks' close work: the ring interface's part, and the rise of ROUND_LAPSE with the
last position taken (R13, R18). -/
def lapsed (o : RoundOut) (s : State) : State :=
  raise CauseNo.roundLapse .none .none (some (unsignedFigure (lastTaken o))) { s with
    ring := ringLapsed s.ring, reply := none, reports := { s.reports with delivering := false } }

/-- The choices still open do not bear on a lapse (log 2). -/
theorem lapsed_with_choices (o : RoundOut) (s : State) (choices : List Nat) (choiceNo : Nat) :
    { lapsed o s with choices := choices, choiceNo := choiceNo } =
      lapsed o { s with choices := choices, choiceNo := choiceNo } := by
  unfold lapsed
  exact ((raise_with_choiceNo _ _ _ _ _ choiceNo).trans
    (congrArg (fun t : State => { t with choiceNo := choiceNo }) (raise_with_choices _ _ _ _ _ choices))).symm

/-- A lapse of the round out: the ring interface's part, and then the blocks (R13). -/
theorem lapseRound_eq (s : State) (o : RoundOut) (out : s.ring.roundOut = some o) :
    lapseRound s = blocksClose (lapsed o s) := by
  have counted : rejoinComplete (lapseCounted o (roundCleared s)) = lapsed o s := by
    rw [rejoinComplete_eq _ (by rw [lapseCounted, raise_ring]; rfl)]
    unfold lapseCounted lapsed
    rw [raise_ring]
    exact (raise_with_ring _ _ _ _ { roundCleared s with ring := { (roundCleared s).ring with
      lapses := (roundCleared s).ring.lapses + 1, returns := 0 } } (ringLapsed s.ring) rfl).symm
  simp only [lapseRound, out, counted]

/-! ### The node-ring break -/

/-- Holding sections that are held changes nothing (R81). -/
theorem holdOnline_holdOnline (s : State) : holdOnline (holdOnline s) = holdOnline s := by
  have held : (holdOnline (holdOnline s)).sects = (holdOnline s).sects := by
    ext i hi
    simp only [holdOnline, Vector.getElem_map]
    by_cases online : s.sects[i].state = .online
    · rw [if_pos online, if_neg (by simp)]
    · rw [if_neg online, if_neg online]
  show { holdOnline s with sects := (holdOnline (holdOnline s)).sects } = holdOnline s
  rw [held]

/-- The yaw at a stop, and BRAKE_HOLD with it (R124). -/
theorem yawToHeld_eq (s : State) : yawToHeld s =
    let rests : Bool := decide (s.yaw.mode = .held)
    { s with
      lines := { s.lines with brakeHold := if rests then s.lines.brakeHold else true }
      yaw := if rests then s.yaw else { s.yaw with
        mode := .held, endMark := false, unwindMark := false
        factor := if s.yaw.unwindMark then s.yaw.saved else s.yaw.factor
        groupB := false, releaseCount := 0, staggerCount := 0, slewCount := 0, stallCount := 0
        coastCount := 0, brakeCount := 0, idleCount := 0, waitCount := 0 } } := by
  by_cases held : s.yaw.mode = .held
  · rw [yawToHeld, if_pos held]
    simp only [held, decide_true, if_true]
  · rw [yawToHeld, if_neg held]
    simp only [held, decide_false, Bool.false_eq_true, if_false]
    rfl

/-- A yaw in HELD stays as it is (R124). -/
theorem yawToHeld_yawToHeld (s : State) : yawToHeld (yawToHeld s) = yawToHeld s := by
  rw [yawToHeld, if_pos (yawToHeld_mode s)]

/-- The sections and the yaw do not read each other at a stop. -/
theorem holdOnline_yawToHeld (s : State) : holdOnline (yawToHeld s) = yawToHeld (holdOnline s) := by
  by_cases held : s.yaw.mode = .held
  · simp only [yawToHeld, show (holdOnline s).yaw.mode = .held from held, if_pos held]
    rfl
  · simp only [yawToHeld, show (holdOnline s).yaw = s.yaw from rfl, if_neg held]
    rfl

/-- The stop demand of a ring break within the break's own holds: it moves the nacelle state and STOP_OUT, and holds
what the break holds in any state (R14, R167). -/
theorem ringBreak_stop (s : State) :
    yawToHeld (holdOnline (stopDemand (.cause CauseNo.ringBreak) s)) =
      yawToHeld (holdOnline (if s.sup.nacelle = .operating then putNacelle .stopped (.cause CauseNo.ringBreak) s
        else s)) := by
  by_cases operating : s.sup.nacelle = .operating
  · rw [stopDemand_of_operating _ s operating, if_pos operating]
    show yawToHeld (holdOnline (yawToHeld (holdOnline _))) = _
    rw [holdOnline_yawToHeld, yawToHeld_yawToHeld, holdOnline_holdOnline]
  · rw [stopDemand_of_not_operating _ s operating, if_neg operating]

/-- What the break's stop and holds leave (R14, R81, R124, R167, R172). -/
theorem ringBreak_holds (s : State) :
    yawToHeld (holdOnline (stopDemand (.cause CauseNo.ringBreak) (clearRunEnable s))) =
      let stops : Bool := decide (s.sup.nacelle = .operating)
      let rests : Bool := decide (s.yaw.mode = .held)
      { s with
        sup := {
          nacelle := if stops then .stopped else s.sup.nacelle
          reason := if stops then .cause 1 else s.sup.reason
          mode := { s.sup.mode with runEnable := false, altered := s.sup.mode.altered || s.sup.mode.runEnable } }
        sects := s.sects.map fun x => if x.state = .online then { x with state := .held } else x
        lines := { s.lines with
          stopOut := if stops then true else s.lines.stopOut
          brakeHold := if rests then s.lines.brakeHold else true }
        yaw := if rests then s.yaw else { s.yaw with
          mode := .held, endMark := false, unwindMark := false
          factor := if s.yaw.unwindMark then s.yaw.saved else s.yaw.factor
          groupB := false, releaseCount := 0, staggerCount := 0, slewCount := 0, stallCount := 0
          coastCount := 0, brakeCount := 0, idleCount := 0, waitCount := 0 } } := by
  rw [ringBreak_stop, yawToHeld_eq]
  by_cases operating : s.sup.nacelle = .operating
  · rw [if_pos (show (clearRunEnable s).sup.nacelle = .operating from operating)]
    simp only [operating, decide_true, if_true]
    rfl
  · rw [if_neg (show (clearRunEnable s).sup.nacelle ≠ .operating from operating)]
    simp only [operating, decide_false, Bool.false_eq_true, if_false]
    rfl

/-! ### Island rounds -/

/-- The cells after the head of an island round with last slot `last` (R16). -/
def islandCells (s : State) (last : Nat) : List Cell :=
  (List.range last).map fun k => islandCell s (k + 1)

/-- An island round opens with its head and all its cells (R16). -/
theorem openIsland_eq (now : Nat) (s : State) : openIsland now s =
    { s with ring := { s.ring with
      nodeOut := s.ring.nodeOut ++ headCell .nacelle (islandNumber s) (islandLast s) :: islandCells s (islandLast s)
      lastHeadOut := some (islandNumber s)
      islandDue := now + s.ring.islandPeriod
      roundOut := some { number := islandNumber s, originator := .nacelle, last := islandLast s, openedAt := now,
                         headReturned := false, nextPos := 0 } } } := by
  simp only [openIsland, openRound, sendNode_ring, List.append_assoc]
  rfl

/-- The cells of an island round follow from the command plan and what its objects carry (R16). -/
theorem islandCells_congr {s t : State} (plan : t.plan = s.plan)
    (object : ∀ o, objectCommand t o = objectCommand s o) (last : Nat) : islandCells t last = islandCells s last := by
  have cell (k : Nat) : islandCell t k = islandCell s k := by
    simp only [islandCell, planFor, commandCell, plan, object]
  simp only [islandCells, cell]

/-- The cell of slot `n + 1` stands at place `n`. -/
theorem islandCells_getElem? (s : State) (last n : Nat) (h : n < last) :
    (islandCells s last)[n]? = some (islandCell s (n + 1)) := by
  simp [islandCells, h]

/-- IDLE in the reserved slots and in every slot that no command-plan entry names (R16). -/
theorem islandCell_idle (s : State) (k : Nat)
    (h : k ≤ 8 ∨ ∀ j : Fin 16, s.plan[j].enable = true → s.plan[j].slot ≠ k) : islandCell s k = idleCell k := by
  have none_ : (if 9 ≤ k then planFor s k else none) = none := by
    split
    · exact planFor_eq_none s k (h.resolve_left (by omega))
    · rfl
  simp only [islandCell, none_]

/-- The COMMAND cell in a command-plan slot (R9, R16). -/
theorem islandCell_command (s : State) (k : Nat) (e : Fin 16) (node : 9 ≤ k) (plan : planFor s k = some e) :
    islandCell s k = commandCell s e k := by
  simp only [islandCell, if_pos node, plan]

end Sys2Proof.Machine

/-- Settles O25. -/
theorem rejoiningEndsOrTimesOut : Obligations.RejoiningEndsOrTimesOut := by
  refine ⟨fun now s mode due => ?_, fun s h mode count out last => ?_⟩
  · show Host.Outcome.next (rejoinTimeout now s) = _
    rw [rejoinTimeout, if_pos ⟨mode, due⟩]
  · show Host.Outcome.next (rejoinComplete s) = _
    rw [rejoinComplete_eq s out]
    simp [mode, count, last]

/-- Settles O23. -/
theorem ringBreakStopsNacelle : Obligations.RingBreakStopsNacelle := by
  refine ⟨fun v => rfl, ?_, fun s broken count => ?_⟩
  · intro s whole lapses stops rests
    show Host.Outcome.next (ringBreak s) = _
    let raised := raise CauseNo.ringBreak .nacelleStop .none (some (unsignedFigure s.ring.lapses)) s
    have begins : ringBreak s = yawToHeld (holdOnline (stopDemand (.cause CauseNo.ringBreak)
        (clearRunEnable { raised with ring := { s.ring with broken := true } }))) :=
      (if_pos (by simp [breakDue, whole, lapses])).trans (congrArg
        (fun t => yawToHeld (holdOnline (stopDemand (.cause CauseNo.ringBreak) (clearRunEnable t))))
        (raise_with_ring _ _ _ _ s { s.ring with broken := true } rfl))
    rw [begins, ringBreak_holds]
    simp only [raised, raise_sup, raise_sects, raise_lines, raise_yaw]
    rfl
  · show Host.Outcome.next (ringBreakEnd s) = _
    rw [ringBreakEnd, if_pos (by simp [broken, count])]

/-- Settles O24: both openings see the same command plan and the same objects. -/
theorem towerLossOpensIslandRounds : Obligations.TowerLossOpensIslandRounds := by
  intro now s out number last
  refine ⟨islandCells s last, by simp [islandCells], fun n inside => ⟨fun idle => ?_, fun k node on at_ alone => ?_⟩,
    ?_, ?_⟩
  · rw [islandCells_getElem? s last n inside, islandCell_idle s (n + 1) idle]
  · refine objectCommand_leaves s _ _ ?_
    rw [islandCells_getElem? s last n inside,
      islandCell_command s (n + 1) k node (planFor_eq_some s (n + 1) k on at_ alone)]
    rfl
  · intro mode due
    let u := raise 0 .none .none (some (unsignedFigure (estimateNow s)))
      { s with ring := { s.ring with mode := .island } }
    have ring : u.ring = { s.ring with mode := .island } := raise_ring ..
    have cells : islandCells u last = islandCells s last :=
      islandCells_congr (raise_plan ..) (objectCommand_congr (raise_sects ..)
        (congrArg Supervisor.nacelle (raise_sup ..)) (raise_power ..) (raise_yaw ..) (raise_pumps ..)
        (raise_cool ..)) last
    have numbered : islandNumber u = number := by
      show islandNumber u = islandNumber s
      simp only [islandNumber, ring]
    have ends : islandLast u = last := by
      show islandLast u = islandLast s
      simp only [islandLast, ring]
    have moded : u.ring = { s.ring with mode := u.ring.mode } :=
      ring.trans (congrArg (fun m => { s.ring with mode := m }) (congrArg Ring.mode ring).symm)
    have opened := openIsland_eq now u
    rw [numbered, ends, cells, moded] at opened
    show Host.Outcome.next (towerLoss now s) = _
    rw [towerLoss, if_pos ⟨mode, due⟩]
    dsimp only
    rw [lapseRound_of_none s out]
    exact congrArg Host.Outcome.next opened
  · intro mode due
    show Host.Outcome.next (islandRoundDue now s) = _
    rw [islandRoundDue, if_pos ⟨mode, due⟩]
    dsimp only
    rw [lapseRound_of_none s out, if_neg mode, openIsland_eq]
    rfl

/-- Settles O21: the tail is handled in its slot, the ring interface closes the round, and the blocks follow. -/
theorem returnedTailClosesRound : Obligations.ReturnedTailClosesRound := by
  intro c s o h long n back ring tail
  let plain := handOver (slotContent c o.last) o.last tail
  let clash := if cellPasses c o.last = true ∧ c.kind ≠ Kind.command then
    raise CauseNo.slotClash .none .none (some (unsignedFigure (256 + o.last))) tail else tail
  let arrived := if planFor tail o.last = none then plain else clash
  have plan : tail.plan = s.plan := checked_plan ..
  have slot : upstreamSlot c o.last tail = sendTower c arrived := by
    rw [upstreamSlot_node c o.last tail long]
    by_cases free : planFor tail o.last = none
    · rw [nodeSlotUp_node c o.last tail free, show arrived = plain from if_pos free]
    · rw [nodeSlotUp_plan c o.last tail free, show arrived = clash from if_neg free]
  have kept : BlockKept tail arrived := by
    by_cases free : planFor tail o.last = none
    · rw [show arrived = plain from if_pos free]
      exact BlockKept.handOver ..
    · rw [show arrived = clash from if_neg free]
      simp only [clash]
      split
      · exact BlockKept.raise ..
      · exact BlockKept.refl _
  let closing : State :=
    { arrived with ring := ring, reply := none, reports := { arrived.reports with delivering := false } }
  have closed : nodeInCell c s = blocksClose closing := by
    rw [nodeInCell_tail c h]
    show closeByReturn (upstreamSlot c o.last tail) = _
    rw [slot, closeByReturn_sendTower, kept.ring]
    rfl
  have after := blocksClose_kept closing
  have due : breakDue closing = false := by simp [breakDue, closing, ring]
  obtain ⟨order, choices, choiceNo, perm, work⟩ := blocksClose_order closing
  rw [due] at perm
  refine ⟨blocksClose closing, arrived, congrArg Host.Outcome.next closed, after.reply, after.delivering, ?_, ?_, ?_,
    order, choices, choiceNo, perm, work⟩
  · rw [after.ring]
    simp [closing, ring]
  · intro free
    rw [show arrived = plain from if_pos (planFor_eq_none tail o.last (by rwa [plan])), ← slotContent_eq]
  · intro k on at_
    exact if_neg (planFor_ne_none tail o.last k (by rwa [plan]) (by rwa [plan]))

/-- Settles O22. -/
theorem lapsedRoundCountsAndRaises : Obligations.LapsedRoundCountsAndRaises := by
  intro now s o out back due counted
  refine ⟨fun passed => ?_, fun early => ?_⟩
  · have lapse : lapseTimeout now s = blocksClose (lapsed o s) := by
      simp only [lapseTimeout, out, if_pos passed, lapseRound_eq s o out]
    have ring : (lapsed o s).ring = counted := raise_ring ..
    have after := blocksClose_kept (lapsed o s)
    have begins : breakDue (lapsed o s) = due := by rw [breakDue, ring]
    obtain ⟨order, choices, choiceNo, perm, work⟩ := blocksClose_order (lapsed o s)
    rw [begins] at perm
    refine ⟨blocksClose (lapsed o s), congrArg Host.Outcome.next lapse, ?_, ?_, ?_, order, choices, choiceNo, perm, ?_⟩
    · exact after.mono CauseNo.roundLapse (raise_pending_self ..)
    · rw [after.reply]
      exact raise_reply ..
    · rw [after.ring, ring]
    · rw [work, lapsed_with_choices]
      rfl
  · show Host.Outcome.next (lapseTimeout now s) = _
    simp only [lapseTimeout, out, if_neg (Nat.not_le.2 early)]

end


section
/-! PROOF. The two resets: RESTART's warm reset and the cold reset. -/

open Sys2Proof Sys2Proof.Machine

namespace Sys2Proof.Machine

/-! ### The warm reset -/

/-- Every value after a warm reset, in either order of its parts, but for causes, records and open choices (R171). -/
theorem warmReset_eq (s : State) : warmReset s =
    { s with
      reply := none, lowHalf := none, channels := s.channels.map channelWarm
      limits := (limitsWarmReset s).limits, sects := (sectionsWarmReset s).sects
      power := (powerWarmReset s).power, yaw := (yawWarmReset s).yaw
      cool := (coolingWarmReset s).cool, pumps := (coolingWarmReset s).pumps
      sup := { nacelle := .loading, reason := .none, mode := Mode.cold }
      lines := { s.lines with stopOut := true, brakeHold := true }
      causes := (warmReset s).causes, reports := (warmReset s).reports
      choices := (warmReset s).choices, choiceNo := (warmReset s).choiceNo } := by
  obtain ⟨frame, -, -⟩ := warmReset_onlyRises s
  rw [← othersWarmReset_channels, othersWarmReset_eq] at frame
  exact frame

/-- After a warm reset an EVENT cause keeps its enables and nothing else (R164). -/
theorem warmReset_event (s : State) (c : Fin 128) (event : causeKind c = .event) :
    (warmReset s).causes[c] = { s.causes[c] with pending := false, injected := false } := by
  obtain ⟨-, -, events⟩ := warmReset_onlyRises s
  rw [events c event, resetValues, othersWarmReset_eq]
  simp only [causesWarmReset, Fin.getElem_fin, Vector.getElem_map]

/-- The causes that rise after a reset are those whose condition holds (R164). -/
theorem mem_holdingCauses (s : State) (c : Fin 128) : c ∈ holdingCauses s ↔ causeCondition c s = true := by
  simp [holdingCauses, allIdx]

/-- The condition of COOLING_BLIND. -/
theorem causeCondition_coolingBlind (s : State) (blind : s.cool.blindMark = true) :
    causeCondition CauseNo.coolingBlind s = true := by
  have condition : blockCondition CauseNo.coolingBlind s = s.cool.blindMark := rfl
  simp only [causeCondition, condition, blind, Bool.true_or, Bool.and_true]
  decide

/-- A cause that rises again after a reset leaves the cooling unit alone. -/
theorem riseAgain_cool (c : Fin 128) (s : State) : (riseAgain c s).cool = s.cool := by
  unfold riseAgain
  split
  · exact raise_cool ..
  · rfl

/-- With the cooling unit blind, COOLING_BLIND is pending after the rises of a reset, in any order (R164). -/
theorem resetRises_coolingBlind (s : State) (blind : s.cool.blindMark = true) :
    (resetRises s).causes[CauseNo.coolingBlind].pending = true := by
  refine inOpenOrder_reaches_of (I := fun t => t.cool.blindMark = true)
    (P := fun t => t.causes[CauseNo.coolingBlind].pending = true) (x := CauseNo.coolingBlind) (holdingCauses s) s
    ?_ blind (fun t h => ?_) (fun c _ t h => ?_) (fun t h => ?_) (fun c _ t _ pending => ?_)
  · exact (mem_holdingCauses s _).2 (causeCondition_coolingBlind s blind)
  · unfold State.choiceMade
    split <;> exact h
  · rw [riseAgain_cool]
    exact h
  · rw [riseAgain, if_pos (causeCondition_coolingBlind t h)]
    exact raise_pending_self ..
  · unfold riseAgain
    split
    · exact raise_pending_mono _ _ _ _ _ _ pending
    · exact pending

/-- The cooling unit is blind after a warm reset (R150). -/
theorem warmReset_coolingBlind (s : State) : (warmReset s).causes[CauseNo.coolingBlind].pending = true := by
  have blind : (warmReset s).cool.blindMark = true :=
    ((readersReset_resetValues s).onlyRises (warmReset_onlyRises s)).blind
  rw [warmReset, (OnlyRises.resetRises _).1] at blind
  exact resetRises_coolingBlind _ blind

end Sys2Proof.Machine

/-- Settles O50: every value but the causes is the reset's own, whatever its order. -/
theorem restartWarmResets : Obligations.RestartWarmResets := by
  intro r s h
  have frame := warmReset_eq s
  have taken : exec (.restart r) s = .next (prepare (replyTo 3 r .ok 0) (warmReset s)) :=
    congrArg Host.Outcome.next (commandRequest_reached restartCommand h (le_refl _))
  refine ⟨_, taken, rfl, (congrArg State.sup frame :), (congrArg State.lines frame :), (congrArg State.ring frame :),
    (congrArg State.windows frame :), (congrArg State.curves frame :), (congrArg State.plan frame :),
    (congrArg State.yawCfg frame :), (congrArg State.coolCfg frame :), (congrArg State.lowHalf frame :),
    fun ch => ?_, fun i => ?_, fun i => ?_,
    (congrArg (·.yaw.mode) frame :), (congrArg (·.yaw.twist) frame :), (congrArg (·.yaw.window) frame :),
    (congrArg (·.yaw.factor) frame :), (congrArg (·.power.rEff) frame :), (congrArg (·.power.ceiling) frame :),
    (congrArg (·.power.issued) frame :), (congrArg (·.power.rating) frame :), fun k => ?_,
    (congrArg (·.cool.dry) frame :), warmReset_coolingBlind s, warmReset_event s⟩
  · show (warmReset s).channels[ch] = _
    rw [frame]
    simp only [Fin.getElem_fin, Vector.getElem_map, channelWarm]
  · show (warmReset s).limits[i] = _
    rw [frame]
    simp only [limitsWarmReset, Fin.getElem_fin, Vector.getElem_map]
    by_cases enabled : s.limits[i.val].enable = true
    · rw [if_pos enabled]
      simp only [armed, enabled, Bool.true_and]
      cases s.channels[s.limits[i.val].channel].configured <;> rfl
    · rw [if_neg enabled]
      simp [disarmed, enabled]
  · show (warmReset s).sects[i].state = _
    rw [frame]
    simp only [sectionsWarmReset, Fin.getElem_fin, Vector.getElem_map]
    split <;> rfl
  · show (warmReset s).pumps[k].commanded = false ∧ (warmReset s).pumps[k].state = .off ∧
      (warmReset s).pumps[k].runMinutes = _
    rw [frame]
    simp [coolingWarmReset]

end


section
/-! PROOF. The cold reset: which causes rise after it, and the records that they file. -/

open Sys2Proof Sys2Proof.Machine

namespace Sys2Proof.Machine

/-- The causes whose condition holds at power-up (R164): EXTERNAL_STOP with ESTOP_IN asserted, TWIST_UNKNOWN and
COOLING_BLIND. -/
def coldCauses (estopIn : Bool) : List (Fin 128) :=
  [CauseNo.twistUnknown, CauseNo.coolingBlind] ++ if estopIn then [CauseNo.externalStop] else []

/-- The record that each of these causes files at power-up (R129, R149, R168). -/
def coldRecord (c : Fin 128) : FaultRecord :=
  if c = CauseNo.twistUnknown then FaultRecord.coldTwist
  else if c = CauseNo.coolingBlind then FaultRecord.coldCooling
  else { cause := c, stamp := 0, action := .nacelleStop, subject := .none, value := none }

/-- The state of power-up once the causes of `done` have risen, in that order. -/
def coldRisen (now : Nat) (s : State) (done : List (Fin 128)) : State :=
  { coldState now s with
    causes := Vector.ofFn fun c => { Cause.cold with pending := decide (c ∈ done) }
    reports := { queue := done.map coldRecord, overflow := false, delivering := false } }

/-- Before the first rise it is the power-up state itself. -/
theorem coldRisen_nil (now : Nat) (s : State) : coldRisen now s [] = coldState now s := by
  have causes : (Vector.ofFn fun c : Fin 128 => { Cause.cold with pending := decide (c ∈ ([] : List (Fin 128))) }) =
      Vector.replicate 128 Cause.cold := by
    ext i hi
    simp only [Vector.getElem_ofFn, Vector.getElem_replicate, List.not_mem_nil, decide_false]
    rfl
  rw [coldRisen, causes]
  rfl

theorem someIdx_eq_false {n : Nat} {p : Fin n → Bool} (h : ∀ i, p i = false) : someIdx p = false := by
  simp [someIdx, h]

theorem mem_coldCauses (c : Fin 128) (estopIn : Bool) :
    c ∈ coldCauses estopIn ↔ c.val = 56 ∨ c.val = 66 ∨ (c.val = 6 ∧ estopIn = true) := by
  cases estopIn <;> simp [coldCauses, Fin.ext_iff]

/-- The conditions at power-up: no limit is enabled, no channel, section or pump is there, and of the others only
these three hold (R164). -/
theorem blockCondition_cold (c : Fin 128) (now : Nat) (s : State) (done : List (Fin 128)) :
    blockCondition c (coldRisen now s done) = decide (c ∈ coldCauses s.lines.estopIn) := by
  unfold blockCondition
  split
  · rename_i limit
    have outside : ¬ (c.val = 56 ∨ c.val = 66 ∨ (c.val = 6 ∧ s.lines.estopIn = true)) := by
      simp only [isLimitCause, decide_eq_true_eq] at limit
      omega
    rw [decide_eq_false (mt (mem_coldCauses c _).1 outside)]
    exact someIdx_eq_false fun i => by
      simp [holdsLimitCause, coldRisen, coldState, State.coldBase, Limit.cold]
  · -- Each row reads one cold value: its number says which of the three it is, if any.
    simp only [mem_coldCauses]
    split
    all_goals simp_all [someIdx, allIdx, hardTwist, runningCount, coldRisen, coldState, State.coldBase, Ring.cold,
      Channel.cold, Limit.cold, Power.cold, Sect.cold, Yaw.cold, YawSettings.cold, Cool.cold, Pump.cold]

/-- No cause is injected at power-up, so these three are the causes that rise (R162, R164). -/
theorem causeCondition_cold (c : Fin 128) (now : Nat) (s : State) (done : List (Fin 128)) :
    causeCondition c (coldRisen now s done) = decide (c ∈ coldCauses s.lines.estopIn) := by
  have notInjected : (coldRisen now s done).causes[c].injected = false := by
    simp [coldRisen, Cause.cold]
  rw [causeCondition, notInjected, blockCondition_cold, Bool.or_false]
  by_cases holds : c ∈ coldCauses s.lines.estopIn
  · have level : causeKind c = .level := by
      rcases (mem_coldCauses c _).1 holds with h | h | ⟨h, -⟩ <;> simp [causeKind, h]
    simp [level]
  · simp [holds]

theorem holdingCauses_nodup (s : State) : (holdingCauses s).Nodup :=
  List.Nodup.filter (fun c => causeCondition c s) (List.nodup_finRange 128)

/-- The causes that rise at power-up are these, once each (R164). -/
theorem holdingCauses_cold (now : Nat) (s : State) :
    (holdingCauses (coldState now s)).Perm (coldCauses s.lines.estopIn) := by
  have nodup : (coldCauses s.lines.estopIn).Nodup := by
    cases s.lines.estopIn <;> decide
  refine (List.perm_ext_iff_of_nodup (holdingCauses_nodup _) nodup).2 fun c => ?_
  rw [mem_holdingCauses, ← coldRisen_nil, causeCondition_cold, decide_eq_true_eq]

/-- The record that a cause of power-up supplies is its block's, as it stands in the cold state (R154). -/
theorem risenRecord_cold (c : Fin 128) (now : Nat) (s : State) (done : List (Fin 128))
    (holds : c ∈ coldCauses s.lines.estopIn) :
    let f := risenRecord c (coldRisen now s done)
    { cause := c, stamp := (coldRisen now s done).ring.extCount, action := f.action, subject := f.subject
      value := f.value } = coldRecord c := by
  rw [risenRecord, blockCondition_cold, if_pos (decide_eq_true holds)]
  rcases (mem_coldCauses c _).1 holds with h | h | ⟨h, -⟩
  · obtain rfl : c = CauseNo.twistUnknown := Fin.ext h
    rfl
  · obtain rfl : c = CauseNo.coolingBlind := Fin.ext h
    rfl
  · obtain rfl : c = CauseNo.externalStop := Fin.ext h
    rfl

/-- A rise that changes the state: the mark goes ON, and with the queue not full its record is filed (R152, R159). -/
theorem raise_filed (c : Fin 128) (a : RecAction) (sub : Subject) (v : Option Half) (s : State)
    (bare : s.causes[c].pending = false) (enabled : s.causes[c].reportEnable = true)
    (room : s.reports.queue.length < Config.queueCapacity) : raise c a sub v s =
      { s with
        causes := s.causes.set c { s.causes[c] with pending := true }
        reports := { s.reports with queue := s.reports.queue ++
          [{ cause := c, stamp := s.ring.extCount, action := a, subject := sub, value := v }] } } := by
  have off : ¬ s.causes[c].pending = true := by rw [bare]; decide
  rw [raise, if_neg off]
  dsimp only
  rw [if_pos enabled]
  exact if_pos room

/-- A cause of power-up that has not risen yet rises, and its record is filed last (R159, R164). -/
theorem riseAgain_coldRisen (c : Fin 128) (now : Nat) (s : State) (done : List (Fin 128))
    (holds : c ∈ coldCauses s.lines.estopIn) (fresh : c ∉ done) (room : done.length < 32) :
    riseAgain c (coldRisen now s done) = coldRisen now s (done ++ [c]) := by
  have risen : (coldRisen now s done).causes.set c { (coldRisen now s done).causes[c] with pending := true } =
      (coldRisen now s (done ++ [c])).causes := by
    ext i hi
    simp only [coldRisen, Fin.getElem_fin, Vector.getElem_set, Vector.getElem_ofFn, List.mem_append,
      List.mem_singleton, Fin.ext_iff]
    by_cases here : c.val = i
    · simp [here]
    · simp [here, Ne.symm here]
  have bare : (coldRisen now s done).causes[c].pending = false := by simp [coldRisen, fresh]
  have enabled : (coldRisen now s done).causes[c].reportEnable = true := by simp [coldRisen, Cause.cold]
  have roomy : (coldRisen now s done).reports.queue.length < Config.queueCapacity := by
    simpa [coldRisen] using room
  have holding : causeCondition c (coldRisen now s done) = true := by
    rw [causeCondition_cold]
    exact decide_eq_true holds
  have queue : (coldRisen now s done).reports.queue ++ [coldRecord c] = (done ++ [c]).map coldRecord := by
    simp [coldRisen]
  rw [riseAgain, if_pos holding]
  dsimp only
  rw [raise_filed _ _ _ _ _ bare enabled roomy, risen,
    show _ = coldRecord c from risenRecord_cold c now s done holds, queue]
  rfl

/-- The causes of power-up rise one after another. -/
theorem foldl_riseAgain_cold (now : Nat) (s : State) (order done : List (Fin 128)) (nodup : (done ++ order).Nodup)
    (holds : ∀ c ∈ order, c ∈ coldCauses s.lines.estopIn) (room : (done ++ order).length ≤ 32) :
    order.foldl (fun t c => riseAgain c t) (coldRisen now s done) = coldRisen now s (done ++ order) := by
  induction order generalizing done with
  | nil => simp
  | cons c order ih =>
    have fresh : c ∉ done := fun mem => (List.nodup_append.1 nodup).2.2 c mem c (by simp) rfl
    rw [List.foldl_cons, riseAgain_coldRisen c now s done (holds c (by simp)) fresh (by simp at room; omega),
      ih (done ++ [c]) (by simpa using nodup) (fun d mem => holds d (by simp [mem])) (by simpa using room)]
    simp

/-- A cold reset is the power-up state with its causes risen in some order (R164; log 2). -/
theorem coldReset_eq (now : Nat) (s : State) : ∃ (order : List (Fin 128)) (choices : List Nat) (choiceNo : Nat),
    order.Perm (coldCauses s.lines.estopIn) ∧
      coldReset now s = coldRisen now { s with choices := choices, choiceNo := choiceNo } order := by
  obtain ⟨order, choices, choiceNo, perm, work⟩ :=
    inOpenOrder_eq_foldl (holdingCauses (coldState now s)) riseAgain (coldState now s)
  have all := perm.trans (holdingCauses_cold now s)
  have nodup : order.Nodup := perm.nodup_iff.2 (holdingCauses_nodup _)
  have short : order.length ≤ 32 := by
    rw [all.length_eq]
    cases s.lines.estopIn <;> decide
  refine ⟨order, choices, choiceNo, all, work.trans ?_⟩
  have start := foldl_riseAgain_cold now { s with choices := choices, choiceNo := choiceNo } order [] nodup
    (fun c mem => all.mem_iff.1 mem) short
  rw [coldRisen_nil] at start
  exact start

/-- The causes of the state after reset, with EXTERNAL_STOP as its line stands (R164, R168). -/
theorem coldRisen_causes (now : Nat) (s : State) (order : List (Fin 128)) (estopIn : Bool)
    (perm : order.Perm (coldCauses estopIn)) : (coldRisen now s order).causes =
      if estopIn then State.reset.causes.set 6 { Cause.cold with pending := true } else State.reset.causes := by
  have rises (c : Fin 128) : c ∈ order ↔ c.val = 56 ∨ c.val = 66 ∨ (c.val = 6 ∧ estopIn = true) := by
    rw [perm.mem_iff, mem_coldCauses]
  apply Vector.ext
  intro i hi
  rw [show (coldRisen now s order).causes[i] = { Cause.cold with pending := decide ((⟨i, hi⟩ : Fin 128) ∈ order) } by
    simp [coldRisen]]
  simp only [rises]
  by_cases twist : i = 56
  · subst twist
    cases estopIn <;> rfl
  by_cases blind : i = 66
  · subst blind
    cases estopIn <;> rfl
  by_cases stop : i = 6
  · subst stop
    cases estopIn <;> rfl
  have other : State.reset.causes[i] = Cause.cold := by
    simp [State.reset, State.coldBase, Ne.symm twist, Ne.symm blind]
  cases estopIn <;> simp [twist, blind, stop, Ne.symm stop, other] <;> rfl

end Sys2Proof.Machine

/-- Settles O6. -/
theorem coldResetRestoresResetState : Obligations.ColdResetRestoresResetState := by
  intro now s
  obtain ⟨order, choices, choiceNo, perm, reset⟩ := coldReset_eq now s
  refine ⟨coldRisen now { s with choices := choices, choiceNo := choiceNo } order, congrArg Host.Outcome.next reset,
    ?_, ?_⟩
  · have records := perm.map coldRecord
    cases estop : s.lines.estopIn <;> (rw [estop] at records; exact records)
  · rw [← coldRisen_causes now { s with choices := choices, choiceNo := choiceNo } order s.lines.estopIn perm]
    rfl

end


section
/-! PROOF. Command plan and slot map: every step keeps them apart, and the writes that could bring them together are
refused. -/

open Sys2Proof Sys2Proof.Machine

namespace Sys2Proof.Machine

/-- Every command keeps plan and slot map apart; COLD_RESET empties the plan (R164, R182). -/
theorem stateAfter_planApart (c : Instr) (s : State) (h : PlanApart s) : PlanApart (stateAfter c s) := by
  obtain ⟨now, rfl⟩ | k := coldReset_or_kept c s
  · exact (Kept.coldReset now s).2.1
  · exact k.apart h

/-- A write to field 0 of a table whose first field is an enable, once the range checks are met: an enable that is
written ON is taken when the table's checks `ok` hold and refused otherwise, and one written OFF is taken (R178). -/
theorem enableWrite_reached {table : Octet} {r : ReqArgs} {s u : State} {ok : Bool} (h : ReachedAt .service r s)
    (idle : s.sup.nacelle ≠ .operating) (zero : r.field = 0) (flag : r.value.toNat < 2) (mode : table ≠ 15)
    (first : (tableFields table.toNat r.index.toNat)[0]? = some (service flagForm .notOperating))
    (index : indexTaken table.toNat r.index.toNat = true)
    (outcome : applyWrite table.toNat r.index.toNat 0 r.value.toNat s =
      if r.value = 1 ∧ ok = false then none else some u) :
    ((r.value = 1 → ok = true) →
      inFollowing (writeRequest table r) s = prepare (replyTo table r .ok r.value) u) ∧
    (r.value = 1 → ok = false →
      inFollowing (writeRequest table r) s = prepare (replyTo table r .refusedConflict r.value) s) := by
  have atZero : r.field.toNat = 0 := by rw [zero]; rfl
  have written := writeRequest_checked (x := service flagForm .notOperating) h mode (by rw [atZero]; exact first)
    (le_refl _) (by simpa [service, When.allows] using idle) (by decide) index (take_flag r.value flag)
  rw [atZero, wordOf_toNat, outcome] at written
  refine ⟨fun good => ?_, fun on bad => ?_⟩
  · have taken : ¬ (r.value = 1 ∧ ok = false) := by
      rintro ⟨on, bad⟩
      simp [good on] at bad
    rw [written, if_neg taken]
    rfl
  · rw [written, if_pos ⟨on, bad⟩]
    rfl

/-- A structural write that leaves its window enabled is taken when the window's checks hold (R23). -/
theorem writeWindow_enable (i : Fin 32) (s : State) (v : Word) (flag : v.toNat < 2) :
    let w : Window := { s.windows[i] with enable := decide (v = 1) }
    writeWindow i 0 v.toNat s =
      if v = 1 ∧ windowConsistent s w = false then none else some { s with windows := s.windows.set i w } := by
  intro w
  have written : windowWith s.windows[i] 0 v.toNat = w := by
    simp only [windowWith, flagOf_eq v flag, w]
  have enabled : w.enable = decide (v = 1) := rfl
  unfold writeWindow
  rw [written]
  dsimp only
  rw [enabled]
  simp [State.setWindow]

/-- A write that leaves its entry enabled is taken when the entry's checks hold (R182). -/
theorem writePlan_enable (k : Fin 16) (s : State) (v : Word) (flag : v.toNat < 2) :
    let p : PlanEntry := { s.plan[k] with enable := decide (v = 1) }
    writePlan k 0 v.toNat s =
      if v = 1 ∧ planConsistent s k p = false then none else some { s with plan := s.plan.set k p } := by
  intro p
  have written : planWith s.plan[k] 0 v.toNat = p := by
    simp only [planWith, flagOf_eq v flag, p]
  have enabled : p.enable = decide (v = 1) := rfl
  unfold writePlan
  rw [written]
  dsimp only
  rw [enabled]
  simp [State.setPlan]

end Sys2Proof.Machine

/-- Settles O4: the command at the front of the queue keeps plan and slot map apart, and neither is the queue. -/
theorem planApartKeptByEveryStep : Obligations.PlanApartKeptByEveryStep := by
  intro s t h e
  unfold step at e
  split at e
  · cases e
    exact h
  · rename_i c rest _
    rw [exec_eq_next] at e
    cases e
    exact stateAfter_planApart c _ (h.same rfl rfl)

/-- Settles O39: the checks that decide are those of R23 for a window and those of R182 for an entry. -/
theorem slotMapAndPlanWritesCheckConflicts : Obligations.SlotMapAndPlanWritesCheckConflicts := by
  intro r s h idle zero flag reply
  have replied (table : Octet) (st : Status) (u : State) :
      prepare (replyTo table r st r.value) u = reply table u st := by
    simp only [prepare, replyTo, zero, reply]
  constructor
  · intro i at_ w fits
    have checks : windowConsistent s w = true ↔ fits := windowConsistent_iff s w
    have outcome : applyWrite (2 : Octet).toNat r.index.toNat 0 r.value.toNat s = _ :=
      (congrArg (writeWindow · 0 r.value.toNat s) (fin_ofNat_of_eq i _ at_)).trans
        (writeWindow_enable i s r.value flag)
    obtain ⟨taken, refused⟩ := enableWrite_reached (table := 2) h idle zero flag (by decide) rfl
      (by simp [indexTaken, tableSize, at_]) outcome
    rw [replied] at taken refused
    exact ⟨fun good => congrArg Host.Outcome.next (taken fun on => checks.2 (good on)),
      fun on bad => congrArg Host.Outcome.next (refused on (Bool.eq_false_iff.2 (mt checks.1 bad)))⟩
  · intro k at_ p fits
    have checks : planConsistent s k p = true ↔ fits := planConsistent_iff s k p
    have outcome : applyWrite (7 : Octet).toNat r.index.toNat 0 r.value.toNat s = _ :=
      (congrArg (writePlan · 0 r.value.toNat s) (fin_ofNat_of_eq k _ at_)).trans
        (writePlan_enable k s r.value flag)
    obtain ⟨taken, refused⟩ := enableWrite_reached (table := 7) h idle zero flag (by decide) rfl
      (by simp [indexTaken, tableSize, at_]) outcome
    rw [replied] at taken refused
    exact ⟨fun good => congrArg Host.Outcome.next (taken fun on => checks.2 (good on)),
      fun on bad => congrArg Host.Outcome.next (refused on (Bool.eq_false_iff.2 (mt checks.1 bad)))⟩

end


section
/-! PROOF. The scaling of a code that no remap entry decides. -/

open Sys2Proof Sys2Proof.Machine

namespace Sys2Proof.Machine

/-- A code lies in the range of 16 bits, read by raw_kind (R29). -/
theorem rawValue_bounds (k : RawKind) (code : Half) : -32768 ≤ rawValue k code ∧ rawValue k code ≤ 65535 := by
  cases k with
  | unsigned => simp only [rawValue]; omega
  | signed =>
    have low := code.le_toInt
    have high := code.toInt_lt
    simp only [rawValue]
    omega

theorem rawValue_eq (k : RawKind) (code : Half) :
    rawValue k code = if k = .unsigned then (code.toNat : Int) else code.toInt := by
  cases k <;> rfl

/-- The rounded quotient lies within half a unit of the exact one, and an exact half has moved away from zero (R34). -/
theorem gainRound_spec (n : Int) : (4096 * gainRound n - n).natAbs ≤ 2048 ∧
    ((4096 * gainRound n - n).natAbs = 2048 → n.natAbs < (4096 * gainRound n).natAbs) := by
  have div (m : Int) : m.fdiv 4096 = m / 4096 := Int.fdiv_eq_ediv_of_nonneg m (by decide)
  unfold gainRound
  split <;> (rw [div]; omega)

end Sys2Proof.Machine

/-- Settles O18: the product is below 98,304 × 32,768 < 2³³. -/
theorem scalingRoundsHalfAwayFromZero : Obligations.ScalingRoundsHalfAwayFromZero := by
  intro x code offsetLow offsetHigh gainLow gainHigh raw n
  have product : (rawValue x.rawKind code - x.offset) * x.gain = n := by rw [rawValue_eq]
  obtain ⟨rawLow, rawHigh⟩ := rawValue_bounds x.rawKind code
  have bound : n.natAbs ≤ 98303 * 32768 := by
    rw [← product, Int.natAbs_mul]
    exact Nat.mul_le_mul (by omega) (by omega)
  have figure : scaled x code = gainRound n := by rw [scaled, product]
  rw [figure]
  exact ⟨by omega, gainRound_spec n⟩

end


section
/-! PROOF. Channels that become STALE: by their quiet count, in the close work of the channel unit, and by a
configuration write. -/

open Sys2Proof Sys2Proof.Machine

namespace Sys2Proof.Machine

/-! ### The quiet count -/

/-- When the quiet count of a LIVE channel, configured and not forced, has reached stale_rounds (R37). -/
theorem goesStale_iff (s : State) (ch : Fin 128) (x : Channel) (at_ : s.channels[ch] = x)
    (configured : x.configured = true) (free : x.forced = false) (live : x.state = .live) :
    goesStale s ch = true ↔ x.staleRounds ≤ x.quiet := by
  simp [goesStale, at_, configured, free, live]

/-- The close work of the channel unit, one part after another in some order (R28, R37). -/
theorem channelsClose_eq_foldl (v : State) :
    let counted : State := { v with channels := v.channels.map quietClose }
    let half : List ChannelClose := match v.lowHalf with
      | some h => [.half h]
      | none => []
    ∃ (order : List ChannelClose) (choices : List Nat) (choiceNo : Nat),
      order.Perm (half ++ (allIdx (goesStale counted)).map .stale) ∧
      channelsClose v = (order.map channelCloseWork).foldl (fun u f => f u)
        { counted with choices := choices, choiceNo := choiceNo } := by
  intro counted half
  obtain ⟨order, choices, choiceNo, perm, work⟩ :=
    inOpenOrder_eq_foldl (half ++ (allIdx (goesStale counted)).map .stale) channelCloseWork counted
  exact ⟨order, choices, choiceNo, perm, by rw [List.foldl_map]; exact work⟩

/-! ### Configuration writes -/

/-- What a write of the channel tables leaves beside its reply: channel `ch` has the record `y`, its readers aside
nothing else has changed, and no stop is demanded. -/
structure ChannelRewritten (s : State) (ch : Fin 128) (y : Channel) (u : State) : Prop where
  kept : ReaderKept (s.setChannel ch y) u
  sup  : u.sup = s.sup

/-- A write of a CONFIGURED channel that stays CONFIGURED makes it STALE; CHANNEL_STALE is pending unless it was STALE
already (R39, R41). -/
theorem channelWritten_configured (ch : Fin 128) (y : Channel) (s : State) (was : s.channels[ch].configured = true)
    (is : y.configured = true) (state : y.state = s.channels[ch].state) :
    ChannelRewritten s ch { y with state := .stale, quiet := 0, forced := false } (channelWritten ch y s) ∧
      (s.channels[ch].state ≠ .stale → (channelWritten ch y s).causes[CauseNo.channelStale].pending = true) := by
  have written : channelWritten ch y s = if s.channels[ch].state = .stale then
      s.setChannel ch { y with quiet := 0, forced := false }
      else makeStale ch 0 { y with quiet := 0, forced := false } s := by
    cases y
    obtain rfl := is
    simp only [channelWritten, was]
  rw [written]
  split
  · rename_i stale
    refine ⟨⟨?_, rfl⟩, fun other => absurd stale other⟩
    rw [← stale, ← state]
    exact ReaderKept.refl _
  · obtain ⟨kept, pending⟩ := makeStale_spec ch 0 { y with quiet := 0, forced := false } s
    exact ⟨⟨kept, (makeStale_sup ..).1⟩, fun _ => pending⟩

/-- A write of definition EMPTY makes a CONFIGURED channel EMPTY with value 0 (R39). -/
theorem channelWritten_empty (ch : Fin 128) (y : Channel) (s : State) (was : s.channels[ch].configured = true)
    (is : y.configured = false) :
    ChannelRewritten s ch { y with state := .empty, value := 0, forced := false } (channelWritten ch y s) := by
  have written : channelWritten ch y s =
      giveLoss ch true [] (s.setChannel ch { y with state := .empty, value := 0, forced := false }) := by
    cases y
    obtain rfl := is
    simp only [channelWritten, was]
  rw [written]
  exact ⟨ReaderKept.giveLoss .., (giveLoss_sup ..).1⟩

/-- A lower bound that would pass the upper one is not taken (R39). -/
theorem writeChannel_clampLow (ch : Fin 128) (z : Int) (s : State) :
    let x := s.channels[ch]
    writeChannel ch 4 z s =
      if x.clampHigh < z then none else some (channelWritten ch { x with clampLow := z } s) := by
  simp [writeChannel, channelWith]

/-- An upper bound that would pass the lower one is not taken (R39). -/
theorem writeChannel_clampHigh (ch : Fin 128) (z : Int) (s : State) :
    let x := s.channels[ch]
    writeChannel ch 5 z s =
      if z < x.clampLow then none else some (channelWritten ch { x with clampHigh := z } s) := by
  simp [writeChannel, channelWith]

section request

variable {r : ReqArgs} {s : State} {ch : Fin 128}

/-- A signed 16-bit figure within its range is taken as written (R178 step 6). -/
theorem take_half (w : Word) (low : -32768 ≤ w.toInt) (high : w.toInt ≤ 32767) :
    halfForm.take w = some (w.toInt, false) := by
  have kept : clampInt (-32768) 32767 w.toInt = w.toInt := clampInt_of_mem low high
  simp [halfForm, Form.take, signedOf, kept]

/-- A write of a channel table whose value is in range is taken or refused by the table's structure alone (R178). -/
theorem channelConfigWrite_checked {remap : Bool} (h : ReachedAt .service r s) (index : r.index.toNat = ch.val)
    {form : Form} {w : When} {z : Int}
    (field : (if remap then remapFields else channelFields)[r.field.toNat]? = some (service form w))
    (state : w.allows s = true) (writable : form ≠ .readOnly) (value : form.take r.value = some (z, false)) :
    exec (.channelConfigWrite remap r) s = .next (
      match (if remap then writeRemap else writeChannel) ch r.field.toNat z s with
      | none => refuse (if remap then 4 else 3) r .refusedConflict s
      | some u => prepare (replyTo (if remap then 4 else 3) r .ok (wordOf z)) u) := by
  have named : Fin.ofNat 128 r.index.toNat = ch := fin_ofNat_of_eq ch _ index
  cases remap with
  | false =>
    have written := writeRequest_checked (table := 3) h (by decide) field (le_refl _) state writable
      (by simp [indexTaken, tableSize, index, ch.isLt]) value
    rw [show applyWrite _ _ _ _ _ = writeChannel (Fin.ofNat 128 r.index.toNat) _ _ _ from rfl, named] at written
    exact congrArg Host.Outcome.next written
  | true =>
    have written := writeRequest_checked (table := 4) h (by decide) field (le_refl _) state writable
      (by simp [indexTaken, tableSize, index, ch.isLt]) value
    rw [show applyWrite _ _ _ _ _ = writeRemap (Fin.ofNat 128 r.index.toNat) _ _ _ from rfl, named] at written
    exact congrArg Host.Outcome.next written

/-- A write of a signed 16-bit field of the channel table, in range and in a state that allows it (R178). -/
theorem halfWrite_checked (h : ReachedAt .service r s) (index : r.index.toNat = ch.val) {f : Octet}
    (field : r.field = f) {w : When} (listed : channelFields[f.toNat]? = some (service halfForm w))
    (state : w.allows s = true) (low : -32768 ≤ r.value.toInt) (high : r.value.toInt ≤ 32767) :
    exec (.channelConfigWrite false r) s = .next (match writeChannel ch f.toNat r.value.toInt s with
      | none => refuse 3 r .refusedConflict s
      | some u => prepare (replyTo 3 r .ok r.value) u) := by
  subst field
  have written := channelConfigWrite_checked (remap := false) h index listed state (by decide)
    (take_half r.value low high)
  rw [wordOf_toInt] at written
  exact written

/-- A write of a clamp bound, in range: taken unless it would pass the other bound (R39, R178). -/
theorem halfWrite_bounded (h : ReachedAt .service r s) (index : r.index.toNat = ch.val) {f : Octet}
    (field : r.field = f) (listed : channelFields[f.toNat]? = some (service halfForm .always))
    (low : -32768 ≤ r.value.toInt) (high : r.value.toInt ≤ 32767) {passes : Prop} [Decidable passes] {u : State}
    (outcome : writeChannel ch f.toNat r.value.toInt s = if passes then none else some u) :
    (¬ passes → exec (.channelConfigWrite false r) s = .next (prepare (replyTo 3 r .ok r.value) u)) ∧
      (passes → exec (.channelConfigWrite false r) s = .next (refuse 3 r .refusedConflict s)) := by
  have written := halfWrite_checked h index field listed rfl low high
  rw [outcome] at written
  exact ⟨fun ordered => by rw [written, if_neg ordered], fun passed => by rw [written, if_pos passed]⟩

/-- What is seen of a channel after a taken write to it, and of the reply. -/
theorem ChannelRewritten.prepared {y : Channel} {u : State} (k : ChannelRewritten s ch y u) (x : Reply) :
    (prepare x u).channels = s.channels.set ch y ∧ (prepare x u).ring = s.ring ∧ (prepare x u).power = s.power ∧
      (prepare x u).sup = s.sup ∧ (prepare x u).reply = some x :=
  ⟨k.kept.channels, k.kept.ring, k.kept.power, k.sup, rfl⟩

/-- A taken write that leaves its channel CONFIGURED makes it STALE (R39, R41). -/
theorem configWrite_stales {remap : Bool} {y : Channel} {x : Reply}
    (taken : exec (.channelConfigWrite remap r) s = .next (prepare x (channelWritten ch y s)))
    (was : s.channels[ch].configured = true) (is : y.configured = true) (state : y.state = s.channels[ch].state) :
    ∃ t, (exec (.channelConfigWrite remap r) s = .next t ∧
        t.channels = s.channels.set ch { y with state := .stale, quiet := 0, forced := false } ∧
        t.ring = s.ring ∧ t.power = s.power ∧ t.sup = s.sup ∧ t.reply = some x) ∧
      (s.channels[ch].state ≠ .stale → t.causes[CauseNo.channelStale].pending = true) := by
  obtain ⟨rewritten, pending⟩ := channelWritten_configured ch y s was is state
  exact ⟨_, ⟨taken, rewritten.prepared x⟩, pending⟩

end request

end Sys2Proof.Machine

/-- Settles O26: the loss of a channel demands no stop, and its readers leave the channels alone. -/
theorem quietChannelGoesStale : Obligations.QuietChannelGoesStale := by
  constructor
  · intro s ch x configured free live
    have due := goesStale_iff s ch x rfl configured free live
    refine ⟨fun reached => ⟨makeStale ch (unsignedFigure x.staleRounds) x s, ?_⟩, fun early => ?_⟩
    · obtain ⟨kept, pending⟩ := makeStale_spec ch (unsignedFigure x.staleRounds) x s
      exact ⟨congrArg Host.Outcome.next (if_pos (due.2 reached)), kept.channels, pending, kept.ring, kept.power,
        (makeStale_sup ..).1⟩
    · exact congrArg Host.Outcome.next (if_neg (mt due.1 (Nat.not_le.2 early)))
  · intro v counted half stale
    obtain ⟨order, choices, choiceNo, perm, work⟩ := channelsClose_eq_foldl v
    refine ⟨order.map channelCloseWork, choices, choiceNo, ?_, work⟩
    have half_eq : List.map channelCloseWork (match v.lowHalf with
        | some h => [.half h]
        | none => []) = half := by
      simp only [half]
      cases v.lowHalf <;> rfl
    rw [← half_eq]
    have all := perm.map channelCloseWork
    rw [List.map_append, List.map_map] at all
    exact all

/-- Settles O40: a write that passes its checks rewrites its channel, and no reader of it touches another. -/
theorem channelConfigWriteMakesStale : Obligations.ChannelConfigWriteMakesStale := by
  intro r s ch h index configured x z inHalf reply done staled refused
  have stales {remap : Bool} (y : Channel) (is : y.configured = true) (state : y.state = x.state)
      (taken : exec (.channelConfigWrite remap r) s =
        .next (prepare (reply remap .ok) (channelWritten ch y s))) : staled remap y :=
    configWrite_stales taken configured is state
  refine ⟨fun idle range => ?_, fun idle field value => ?_, fun operating field => ?_, fun range => ?_,
    fun field value => ?_⟩
  · have allowed : When.notOperating.allows s = true := decide_eq_true idle
    refine ⟨fun field => stales { x with offset := z } configured rfl ?_,
      fun field => stales { x with gain := z } configured rfl ?_⟩
    · exact halfWrite_checked h index field rfl allowed range.1 range.2
    · exact halfWrite_checked h index field rfl allowed range.1 range.2
  · have written := channelConfigWrite_checked (remap := false) (w := .notOperating) (form := .enumerated 2) (z := 0)
      h index (by rw [field]; rfl) (decide_eq_true idle) (by decide) (by rw [value]; rfl)
    have taken : exec (.channelConfigWrite false r) s =
        .next (prepare (reply false .ok) (channelWritten ch { x with configured := false } s)) := by
      rw [written, field]
      simp only [reply, value]
      rfl
    exact ⟨_, taken, (channelWritten_empty ch { x with configured := false } s configured rfl).prepared _⟩
  · have barred : When.notOperating.allows s = false := by simp [When.allows, operating]
    have listed : ∃ form, channelFields[r.field.toNat]? = some (service form .notOperating) := by
      obtain field | field | field := field <;> exact ⟨_, by rw [field]; rfl⟩
    obtain ⟨form, listed⟩ := listed
    exact congrArg Host.Outcome.next (writeRequest_state (table := 3) h (by decide) listed barred)
  · obtain ⟨low, high⟩ := range
    have lowWrite (field : r.field = 4) :=
      halfWrite_bounded h index field rfl low high (writeChannel_clampLow ch z s)
    have highWrite (field : r.field = 5) :=
      halfWrite_bounded h index field rfl low high (writeChannel_clampHigh ch z s)
    exact ⟨fun field ordered =>
        stales { x with clampLow := z } configured rfl ((lowWrite field).1 (not_lt.2 ordered)),
      fun field => (lowWrite field).2,
      fun field ordered =>
        stales { x with clampHigh := z } configured rfl ((highWrite field).1 (not_lt.2 ordered)),
      fun field => (highWrite field).2⟩
  · have written := channelConfigWrite_checked (remap := true) (w := .always) (form := .unsigned 0 4) (z := 0)
      h index (by rw [field]; rfl) rfl (by decide) (by rw [value]; rfl)
    refine stales { x with remapCount := 0 } configured rfl ?_
    rw [written, field]
    simp only [reply, value]
    rfl

end


section
/-! PROOF. A code of BAD node quality, and the loss that it brings to the reader of its channel. -/

open Sys2Proof Sys2Proof.Machine

namespace Sys2Proof.Machine

/-! ### Readers of a channel -/

/-- Who reads a channel (R38). -/
theorem mem_readersOf (s : State) (ch : Fin 128) (x : Reader) : x ∈ readersOf s ch ↔
    match x with
    | .own _ _ => False
    | .limit i => s.limits[i].enable = true ∧ s.limits[i].channel = ch
    | .heatsink i => s.sects[i].present = true ∧ s.sects[i].heatsink = ch
    | .status i => s.sects[i].present = true ∧ s.sects[i].status = ch
    | .heading => s.yawCfg.heading = ch
    | .vane => s.yawCfg.vane = ch
    | .cooling => marginInput s ch = true := by
  unfold readersOf
  cases x <;> simp [allIdx]

/-! ### What a code does to its channel -/

section code

variable (ch : Fin 128) (code : Half) (s : State)

/-- An EMPTY channel ignores its codes (R31). -/
theorem processCode_empty (good : Bool) (empty : s.channels[ch].configured = false) :
    processCode ch code good s = s := by
  simp only [processCode, empty, Bool.not_false, if_true]

/-- A forced channel records its codes and nothing else (R31). -/
theorem processCode_forced (good : Bool) (configured : s.channels[ch].configured = true)
    (forced : s.channels[ch].forced = true) :
    processCode ch code good s = s.setChannel ch (recordCode s s.channels[ch] code) := by
  simp only [processCode, configured, forced, Bool.not_true, Bool.false_eq_true, if_false, if_true]

/-- A code of BAD node quality is dealt with as invalid (R32). -/
theorem processCode_bad (configured : s.channels[ch].configured = true) (free : s.channels[ch].forced = false) :
    processCode ch code false s = codeInvalid ch code (recordCode s s.channels[ch] code) s := by
  simp only [processCode, configured, free, Bool.not_true, Bool.not_false, Bool.false_eq_true, if_false, if_true]

end code

/-! ### What a loss leaves alone -/

/-- `t` is `s` but for the channels, the causes and records, and the open choices. -/
def LossKept (s t : State) : Prop :=
  t = { s with
    channels := t.channels, causes := t.causes, reports := t.reports, choices := t.choices, choiceNo := t.choiceNo }

namespace LossKept

theorem refl (s : State) : LossKept s s := rfl

theorem trans {s t u : State} (h : LossKept s t) (k : LossKept t u) : LossKept s u := by
  unfold LossKept at *
  rw [k, h]

theorem raise (c : Fin 128) (a : RecAction) (sub : Subject) (v : Option Half) (s : State) :
    LossKept s (Machine.raise c a sub v s) := by
  unfold LossKept
  rw [raise_frame]

theorem choiceMade (s : State) : LossKept s s.choiceMade := by
  unfold State.choiceMade
  split <;> rfl

theorem setChannel (ch : Fin 128) (x : Channel) (s : State) : LossKept s (s.setChannel ch x) := rfl

section fields

variable {s t : State} (h : LossKept s t)
include h

theorem limits : t.limits = s.limits := (congrArg State.limits h :)
theorem sects : t.sects = s.sects := (congrArg State.sects h :)
theorem yaw : t.yaw = s.yaw := (congrArg State.yaw h :)
theorem lines : t.lines = s.lines := (congrArg State.lines h :)
theorem coolCfg : t.coolCfg = s.coolCfg := (congrArg State.coolCfg h :)
theorem cool : t.cool = s.cool := (congrArg State.cool h :)

end fields

/-- An update that neither reads nor touches what a loss may change does the same on both sides. -/
theorem map {s t : State} (h : LossKept s t) (f : State → State)
    (blind : ∀ (u : State) (channels : Vector Channel 128) (causes : Vector Cause 128) (reports : Reports)
      (choices : List Nat) (choiceNo : Nat),
      f { u with
        channels := channels, causes := causes, reports := reports, choices := choices, choiceNo := choiceNo } =
      { f u with
        channels := channels, causes := causes, reports := reports, choices := choices, choiceNo := choiceNo }) :
    LossKept (f s) (f t) := by
  unfold LossKept at *
  rw [h, blind]

end LossKept

/-- Two works in an open order: the one first, or the other. -/
theorem inOpenOrder_pair {α : Type} (a b : α) (f : α → State → State) (s : State) :
    inOpenOrder [a, b] f s = f b (f a s.choiceMade) ∨ inOpenOrder [a, b] f s = f a (f b s.choiceMade) := by
  obtain e | e : arrange s.nextChoice [a, b] = [a, b] ∨ arrange s.nextChoice [a, b] = [b, a] := by
    obtain parity | parity := Nat.mod_two_eq_zero_or_one s.nextChoice
    · exact .inl (by simp [arrange, arrangeWith, parity])
    · exact .inr (by simp [arrange, arrangeWith, parity])
  · exact .inl (by simp only [inOpenOrder, e, List.foldl_cons, List.foldl_nil])
  · exact .inr (by simp only [inOpenOrder, e, List.foldl_cons, List.foldl_nil])

/-- The loss of a channel with one reader: what the reader's work brings about, and the rise that goes with the loss
keeps, holds once the loss has been handed out, whichever came first (R36). -/
theorem giveLoss_of_one {s : State} {ch : Fin 128} {x : Reader} (one : readersOf s ch = [x]) (c : Fin 128) (v : Half)
    {P : State → Prop} (work : ∀ u, LossKept s u → u.channels = s.channels → P (lossWork ch false x u))
    (rise : ∀ u, P u → P (raise c .none (.channel ch) (some v) u)) : P (giveLoss ch false [.own c v] s) := by
  have made : s.choiceMade.channels = s.channels := (ReaderKept.choiceMade s).channels
  unfold giveLoss
  rw [one]
  obtain e | e := inOpenOrder_pair (.own c v) x (lossWork ch false) s
  · rw [List.singleton_append, e]
    exact work _ ((LossKept.choiceMade s).trans (.raise ..)) ((raise_channels ..).trans made)
  · rw [List.singleton_append, e]
    exact rise _ (work _ (.choiceMade s) made)

/-! ### The readers at a loss -/

/-- A limit clears its run of counts (R60). -/
theorem limitLoss_eq (i : Fin 96) (s : State) (on : s.limits[i].enable = true)
    (bound : s.limits[i].level ≠ .unbound) : limitLoss i false s =
      s.setLimit i { s.limits[i] with counter := 0, target := s.limits[i].level.toTarget } := by
  simp only [limitLoss, on, bound, Bool.not_true, decide_false, Bool.or_self, Bool.false_eq_true, if_false]

/-- A section takes section_blind (R82). -/
theorem heatsinkLoss_eq (i : Fin 6) (s : State) (present : s.sects[i].present = true) : heatsinkLoss i s =
    raise CauseNo.sectionBlind .derate (.sect i) (some (unsignedFigure s.power.sectionBlind)) (s.setSect i
      { s.sects[i] with thermal := s.power.sectionBlind, blind := true, curveFallback := false }) := by
  simp only [heatsinkLoss, present, Bool.not_true, Bool.false_eq_true, if_false]

/-- An ONLINE section is held (R77). -/
theorem statusLoss_online (i : Fin 6) (s : State) (present : s.sects[i].present = true)
    (online : s.sects[i].state = .online) : statusLoss i s =
      raise CauseNo.sectionDropped .none (.sect i) none (s.setSect i { s.sects[i] with state := .held }) := by
  simp only [statusLoss, present, online, decide_true, Bool.and_self, if_true]

theorem statusLoss_other (i : Fin 6) (s : State) (other : s.sects[i].state ≠ .online) : statusLoss i s = s := by
  simp only [statusLoss, other, decide_false, Bool.and_false, Bool.false_eq_true, if_false]

/-- The yaw's runtime at a heading loss in movement, which takes it to HELD (R110, R124). -/
def headingLostYaw (y : Yaw) : Yaw :=
  { { y with reanchor := true, headingLost := true }.unwindLeft.countsCleared with
    mode := .held, endMark := false, groupB := false }

/-- The states of R110, spelled out. -/
theorem movingMode_iff (m : YawMode) :
    movingMode m = true ↔ m = .releasing ∨ m = .slewing ∨ m = .unwinding ∨ m = .jogging := by
  cases m <;> simp [movingMode]

theorem headingLoss_moving (s : State) (moving : movingMode s.yaw.mode = true) : headingLoss s =
    raise CauseNo.headingInvalid .yawHold .none (s.yaw.anchor.map unsignedFigure)
      (putYaw (headingLostYaw s.yaw) s) := by
  have mode : s.yaw.mode ≠ .held := by
    intro held
    rw [held] at moving
    cases moving
  unfold headingLoss yawToHeld
  dsimp only
  rw [if_pos moving, if_neg mode]
  rfl

theorem headingLoss_still (s : State) (still : movingMode s.yaw.mode = false) :
    headingLoss s = { s with yaw := { s.yaw with reanchor := true } } := by
  simp only [headingLoss, still, Bool.false_eq_true, if_false]

/-- STOPPING without a mark (R121, R123). -/
theorem toStopping_false (s : State) : toStopping false s =
    { s with
      yaw := { s.yaw with mode := .stopping, groupB := false, coastCount := 0 }
      lines := { s.lines with brakeHold := false } } := by
  simp only [toStopping, Bool.or_false]
  rfl

/-! ### The cooling unit at a loss -/

/-- The cooling unit's runtime at the loss of T_in (R140). -/
def coolantLost (s : State) : Cool :=
  { s.cool with
    coolantFactor := s.coolCfg.blind, blindMark := true, fallbackMark := false
    factor := min s.coolCfg.blind (s.coolCfg.pumpFactor.toList.getD (runningCount s) 0) }

theorem coolantLoss_eq (s : State) : coolantLoss s =
    raise CauseNo.coolingBlind .derate (.channel s.coolCfg.tin) (some (unsignedFigure s.coolCfg.blind))
      { s with cool := coolantLost s } := rfl

/-- A true dry permissive meets a margin that is unknown or below dry_lost (R146). -/
def dryLosing (margin : Option Int) (s : State) : Bool :=
  s.cool.dry && match margin with
    | none => true
    | some m => decide (m < s.coolCfg.dryLost)

/-- The loss test of the permissive: DRY_LOST rises when one that has been true before is lost (R146). -/
theorem dryLossTest_eq (s : State) : dryLossTest s =
    let losing := dryLosing s.cool.margin s
    let u : State := { s with cool := { s.cool with dry := s.cool.dry && !losing } }
    if losing && s.cool.beenDry then
      raise CauseNo.dryLost .none .none (s.cool.margin.map signedFigure) u
    else u := by
  show (if dryLosing s.cool.margin s = true then _ else s) = _
  cases losing : dryLosing s.cool.margin s
  · simp
  · simp

/-- The guard applies to the margin as it is formed anew (R143). -/
def guardHolds (s : State) : Bool :=
  guardApplies { s with cool := { s.cool with margin := marginNow s } }

/-- It lowers a commanded stage that stands above guard_cap (R143). -/
def guardDrops (s : State) : Bool :=
  guardHolds s && decide (s.coolCfg.guardCap < s.cool.commanded)

/-- The cooling unit's runtime after the margin has been formed anew (R143 to R146). -/
def marginTaken (s : State) : Cool :=
  { s.cool with
    margin := marginNow s
    commanded := if guardDrops s then s.coolCfg.guardCap else s.cool.commanded
    stepCount := if guardDrops s then 0 else s.cool.stepCount
    heater := match marginNow s with
      | none => true
      | some m => if m < s.coolCfg.heatOn then true else if s.coolCfg.heatOff < m then false else s.cool.heater
    dry := s.cool.dry && !dryLosing (marginNow s) s }

/-- A margin formed anew: the guard, the heater and the permissive follow it (R144). -/
theorem formMargin_eq (s : State) : formMargin s =
    if dryLosing (marginNow s) s && s.cool.beenDry then
      raise CauseNo.dryLost .none .none ((marginNow s).map signedFigure) { s with cool := marginTaken s }
    else { s with cool := marginTaken s } := by
  have guard : guardTest { s with cool := { s.cool with margin := marginNow s } } =
      { s with cool := { s.cool with
        margin := marginNow s
        commanded := if guardDrops s then s.coolCfg.guardCap else s.cool.commanded
        stepCount := if guardDrops s then 0 else s.cool.stepCount } } := by
    unfold guardTest
    rw [show (guardApplies _ && decide (_ < _)) = guardDrops s from rfl]
    cases guardDrops s <;> rfl
  rw [formMargin, guard, dryLossTest_eq]
  rfl

/-- With an input of the margin that is not usable the margin is unknown (R144). -/
theorem marginNow_unknown (s : State) (ch : Fin 128) (input : marginInput s ch = true)
    (lost : s.channels[ch].state ≠ .live) : marginNow s = none := by
  have unusable : chanValue s ch = none := if_neg (by simpa only [usable, decide_eq_true_iff] using lost)
  simp only [marginInput, Bool.or_eq_true, decide_eq_true_iff] at input
  unfold marginNow
  obtain (rfl | rfl) | rfl := input
  · rw [unusable]
  · rw [unusable]
    split <;> simp_all
  · rw [unusable]
    split <;> simp_all

/-- The cooling unit's runtime once the margin is unknown: the heater ON, and no dry permissive (R145, R146). -/
def Cool.marginLost (c : Cool) : Cool :=
  { c with margin := none, heater := true, dry := false }

/-- With an unknown margin the guard does not hold the stage down (R143). -/
theorem marginTaken_unknown (s : State) (unknown : marginNow s = none) : marginTaken s = s.cool.marginLost := by
  have losing : dryLosing none s = s.cool.dry := Bool.and_true _
  have guard : guardDrops s = false := by
    rw [guardDrops, guardHolds, unknown]
    rfl
  rw [marginTaken, unknown, losing, guard]
  simp [Cool.marginLost]

theorem formMargin_kept (s : State) : LossKept { s with cool := marginTaken s } (formMargin s) := by
  rw [formMargin_eq]
  split
  · exact .raise ..
  · exact .refl _

/-- A permissive that has been true before is not lost without DRY_LOST (R146). -/
theorem formMargin_dryLost (s : State) (losing : dryLosing (marginNow s) s = true) (been : s.cool.beenDry = true) :
    (formMargin s).causes[CauseNo.dryLost].pending = true := by
  rw [formMargin_eq, losing, been, Bool.and_self, if_pos rfl]
  exact raise_pending_self ..

/-- What the loss of a channel does to the coolant factor (R140). -/
def coolantAtLoss (ch : Fin 128) (s : State) : State :=
  if ch = s.coolCfg.tin then coolantLoss s else s

/-- The cooling unit's runtime after that. -/
def coolAtLoss (ch : Fin 128) (s : State) : Cool :=
  if ch = s.coolCfg.tin then coolantLost s else s.cool

theorem coolantAtLoss_kept (ch : Fin 128) (s : State) :
    LossKept { s with cool := coolAtLoss ch s } (coolantAtLoss ch s) ∧ ReaderKept s (coolantAtLoss ch s) := by
  unfold coolantAtLoss coolAtLoss
  split
  · exact ⟨.raise .., .coolantLoss s⟩
  · exact ⟨.refl s, .refl s⟩

theorem coolAtLoss_marks (ch : Fin 128) (s : State) :
    (coolAtLoss ch s).dry = s.cool.dry ∧ (coolAtLoss ch s).beenDry = s.cool.beenDry := by
  unfold coolAtLoss
  split <;> exact ⟨rfl, rfl⟩

section cooling

variable (ch : Fin 128) (s : State) (input : marginInput s ch = true) (lost : s.channels[ch].state ≠ .live)
include input lost

/-- The loss of an input of the margin: the coolant factor, and then the margin, which is unknown (R140, R144). -/
theorem coolingLoss_eq :
    coolingLoss ch s = formMargin (coolantAtLoss ch s) ∧ marginNow (coolantAtLoss ch s) = none := by
  obtain ⟨-, kept⟩ := coolantAtLoss_kept ch s
  refine ⟨if_pos input, marginNow_unknown _ ch ?_ ?_⟩
  · rw [marginInput, kept.coolCfg]
    exact input
  · rw [kept.channels]
    exact lost

theorem coolingLoss_kept : LossKept { s with cool := (coolAtLoss ch s).marginLost } (coolingLoss ch s) := by
  obtain ⟨loss, unknown⟩ := coolingLoss_eq ch s input lost
  have formed := formMargin_kept (coolantAtLoss ch s)
  rw [marginTaken_unknown _ unknown, ← loss] at formed
  exact ((coolantAtLoss_kept ch s).1.map (fun u => { u with cool := u.cool.marginLost })
    fun _ _ _ _ _ _ => rfl).trans formed

/-- COOLING_BLIND rises with the loss of T_in (R140). -/
theorem coolingLoss_blind (tin : ch = s.coolCfg.tin) :
    (coolingLoss ch s).causes[CauseNo.coolingBlind].pending = true := by
  rw [(coolingLoss_eq ch s input lost).1]
  refine (ReaderKept.formMargin _).mono _ ?_
  rw [coolantAtLoss, if_pos tin]
  exact raise_pending_self ..

/-- DRY_LOST rises with the end of a true permissive (R146). -/
theorem coolingLoss_dryLost (dry : s.cool.dry = true) (been : s.cool.beenDry = true) :
    (coolingLoss ch s).causes[CauseNo.dryLost].pending = true := by
  obtain ⟨loss, unknown⟩ := coolingLoss_eq ch s input lost
  have cool : (coolantAtLoss ch s).cool = coolAtLoss ch s := (coolantAtLoss_kept ch s).1.cool
  obtain ⟨sameDry, sameBeen⟩ := coolAtLoss_marks ch s
  rw [loss]
  refine formMargin_dryLost _ ?_ (by rw [cool, sameBeen, been])
  rw [unknown, dryLosing, cool, sameDry, dry]
  rfl

end cooling

/-! ### The readers' work beside what a loss leaves alone -/

namespace LossKept

variable {s u : State} (h : LossKept s u)
include h

theorem limitLoss (i : Fin 96) (on : s.limits[i].enable = true) (bound : s.limits[i].level ≠ .unbound) :
    LossKept (s.setLimit i { s.limits[i] with counter := 0, target := s.limits[i].level.toTarget })
      (Machine.limitLoss i false u) := by
  rw [limitLoss_eq i u (by rw [h.limits]; exact on) (by rw [h.limits]; exact bound)]
  exact h.map (fun w => w.setLimit i { w.limits[i] with counter := 0, target := w.limits[i].level.toTarget })
    fun _ _ _ _ _ _ => rfl

theorem heatsinkLoss (i : Fin 6) (present : s.sects[i].present = true) :
    LossKept (s.setSect i
      { s.sects[i] with thermal := s.power.sectionBlind, blind := true, curveFallback := false })
      (Machine.heatsinkLoss i u) ∧ (Machine.heatsinkLoss i u).causes[CauseNo.sectionBlind].pending = true := by
  rw [heatsinkLoss_eq i u (by rw [h.sects]; exact present)]
  exact ⟨(h.map (fun w => w.setSect i
    { w.sects[i] with thermal := w.power.sectionBlind, blind := true, curveFallback := false })
    fun _ _ _ _ _ _ => rfl).trans (.raise ..), raise_pending_self ..⟩

theorem statusLoss_online (i : Fin 6) (present : s.sects[i].present = true) (online : s.sects[i].state = .online) :
    LossKept (s.setSect i { s.sects[i] with state := .held }) (statusLoss i u) ∧
      (statusLoss i u).causes[CauseNo.sectionDropped].pending = true := by
  rw [Machine.statusLoss_online i u (by rw [h.sects]; exact present) (by rw [h.sects]; exact online)]
  exact ⟨(h.map (fun w => w.setSect i { w.sects[i] with state := .held }) fun _ _ _ _ _ _ => rfl).trans (.raise ..),
    raise_pending_self ..⟩

theorem statusLoss_other (i : Fin 6) (other : s.sects[i].state ≠ .online) : LossKept s (statusLoss i u) := by
  rw [Machine.statusLoss_other i u (by rw [h.sects]; exact other)]
  exact h

theorem headingLoss_moving (moving : movingMode s.yaw.mode = true) :
    LossKept (putYaw (headingLostYaw s.yaw) s) (headingLoss u) ∧
      (headingLoss u).causes[CauseNo.headingInvalid].pending = true := by
  rw [Machine.headingLoss_moving u (by rw [h.yaw]; exact moving)]
  exact ⟨(h.map (fun w => putYaw (headingLostYaw w.yaw) w) fun _ _ _ _ _ _ => rfl).trans (.raise ..),
    raise_pending_self ..⟩

theorem headingLoss_still (still : movingMode s.yaw.mode = false) :
    LossKept { s with yaw := { s.yaw with reanchor := true } } (headingLoss u) := by
  rw [Machine.headingLoss_still u (by rw [h.yaw]; exact still)]
  exact h.map (fun w => { w with yaw := { w.yaw with reanchor := true } }) fun _ _ _ _ _ _ => rfl

theorem vaneLoss_slewing (slewing : s.yaw.mode = .slewing) : LossKept (toStopping false s) (vaneLoss u) := by
  rw [vaneLoss, if_pos (by rw [h.yaw]; exact slewing)]
  exact h.map (toStopping false) fun _ _ _ _ _ _ => rfl

theorem vaneLoss_other (other : s.yaw.mode ≠ .slewing) : LossKept s (vaneLoss u) := by
  rw [vaneLoss, if_neg (by rw [h.yaw]; exact other)]
  exact h

theorem coolingLoss (ch : Fin 128) (input : marginInput s ch = true) (lost : u.channels[ch].state ≠ .live) :
    LossKept { s with cool := (coolAtLoss ch s).marginLost } (Machine.coolingLoss ch u) ∧
      (ch = s.coolCfg.tin → (Machine.coolingLoss ch u).causes[CauseNo.coolingBlind].pending = true) ∧
      (s.cool.dry = true → s.cool.beenDry = true →
        (Machine.coolingLoss ch u).causes[CauseNo.dryLost].pending = true) := by
  have input' : marginInput u ch = true := by
    rw [marginInput, h.coolCfg]
    exact input
  refine ⟨?_, fun tin => coolingLoss_blind ch u input' lost (by rw [h.coolCfg]; exact tin),
    fun dry been => coolingLoss_dryLost ch u input' lost (by rw [h.cool]; exact dry) (by rw [h.cool]; exact been)⟩
  exact (h.map (fun w => { w with cool := (coolAtLoss ch w).marginLost }) fun _ _ _ _ _ _ => rfl).trans
    (coolingLoss_kept ch u input' lost)

end LossKept

/-! ### A code of BAD node quality for a LIVE channel with one reader -/

section bad

variable {ch : Fin 128} {s : State} {x : Reader} (code : Half) (configured : s.channels[ch].configured = true)
  (free : s.channels[ch].forced = false) (live : s.channels[ch].state = .live) (one : readersOf s ch = [x])
include configured free live one

/-- What the reader's work brings about, and the rise of CHANNEL_INVALID keeps, holds once the code has been dealt with
(R32, R36). -/
theorem processCode_bad_live {P : State → Prop}
    (work : ∀ u, LossKept s u → u.channels[ch].state ≠ .live → P (lossWork ch false x u))
    (rise : ∀ u, P u → P (raise CauseNo.channelInvalid .none (.channel ch) (some code) u)) :
    P (processCode ch code false s) := by
  have state : (recordCode s s.channels[ch] code).state = .live := live
  rw [processCode_bad ch code s configured free, codeInvalid, state]
  refine giveLoss_of_one (s := s.setChannel ch { recordCode s s.channels[ch] code with state := .invalid }) one _ _
    (fun u kept channels => work u ((LossKept.setChannel ..).trans kept) ?_) rise
  rw [channels, State.setChannel_at]
  exact ChanState.noConfusion

theorem processCode_bad_kept {e : State}
    (work : ∀ u, LossKept s u → u.channels[ch].state ≠ .live → LossKept e (lossWork ch false x u)) :
    LossKept e (processCode ch code false s) :=
  processCode_bad_live code configured free live one work fun _ kept => kept.trans (.raise ..)

theorem processCode_bad_pending {d : Fin 128}
    (work : ∀ u, LossKept s u → u.channels[ch].state ≠ .live →
      (lossWork ch false x u).causes[d].pending = true) :
    (processCode ch code false s).causes[d].pending = true :=
  processCode_bad_live code configured free live one (P := fun u => u.causes[d].pending = true) work
    fun _ pending => raise_pending_mono _ d _ _ _ _ pending

end bad

end Sys2Proof.Machine

/-- Settles O20: the rises that go with the loss leave the reader's own work as it is, whichever comes first. -/
theorem badCodeInvalidatesChannel : Obligations.BadCodeInvalidatesChannel := by
  intro s ch code x seen t
  refine ⟨processCode_empty ch code s false, processCode_forced ch code s false, fun configured free invalid => ?_,
    fun configured free valid => ?_, fun configured free live => ?_⟩
  · have state : (recordCode s x code).state = .invalid := invalid
    show processCode ch code false s = _
    rw [processCode_bad ch code s configured free, codeInvalid, state]
    rfl
  · obtain ⟨kept, pending⟩ := codeInvalid_spec ch code (recordCode s x code) s valid
    rw [← processCode_bad ch code s configured free] at kept pending
    exact ⟨kept.channels, pending, kept.ring⟩
  intro rises
  have kept {y : Reader} {e : State} (one : readersOf s ch = [y])
      (work : ∀ u, LossKept s u → u.channels[ch].state ≠ .live → LossKept e (lossWork ch false y u)) :
      LossKept e t :=
    processCode_bad_kept code configured free live one work
  have pending {y : Reader} {d : Fin 128} (one : readersOf s ch = [y])
      (work : ∀ u, LossKept s u → u.channels[ch].state ≠ .live →
        (lossWork ch false y u).causes[d].pending = true) :
      t.causes[d].pending = true :=
    processCode_bad_pending code configured free live one work
  have reads {y : Reader} (one : readersOf s ch = [y]) := (mem_readersOf s ch y).1 (by rw [one]; simp)
  refine ⟨fun j one bound => ?_, fun j one => ?_, fun j one => ⟨fun online => ?_, fun other => ?_⟩, fun one => ?_,
    fun one => ⟨fun slewing => ?_, fun other => ?_⟩, fun one => ?_⟩
  · have target (l : Level) : l.toTarget = match l with | .warn => .warn | .trip => .trip | _ => .clear := by
      cases l <;> rfl
    have loss := kept one fun u h _ => h.limitLoss j (reads one).1 bound
    rw [target] at loss
    exact loss
  · exact ⟨pending one fun u h _ => (h.heatsinkLoss j (reads one).1).2,
      kept one fun u h _ => (h.heatsinkLoss j (reads one).1).1⟩
  · exact ⟨pending one fun u h _ => (h.statusLoss_online j (reads one).1 online).2,
      kept one fun u h _ => (h.statusLoss_online j (reads one).1 online).1⟩
  · exact kept one fun u h _ => h.statusLoss_other j other
  · refine ⟨fun moves => ?_, fun still => ?_⟩
    · have moving := (movingMode_iff s.yaw.mode).2 moves
      have loss := kept one fun u h _ => (h.headingLoss_moving moving).1
      have yaw : t.yaw = headingLostYaw s.yaw := loss.yaw
      have lines : t.lines = { s.lines with brakeHold := true } := loss.lines
      refine ⟨by rw [yaw]; rfl, by rw [yaw]; rfl, by rw [yaw]; rfl, by rw [yaw]; rfl, lines,
        pending one fun u h _ => (h.headingLoss_moving moving).2, ?_⟩
      rw [yaw, lines]
      exact loss
    · have still := Bool.eq_false_iff.2 (mt (movingMode_iff s.yaw.mode).1 still)
      exact kept one fun u h _ => h.headingLoss_still still
  · rw [← toStopping_false]
    exact kept one fun u h _ => h.vaneLoss_slewing slewing
  · exact kept one fun u h _ => h.vaneLoss_other other
  · intro running
    have input : marginInput s ch = true := reads one
    have loss := kept one fun u h lost => (h.coolingLoss ch input lost).1
    have cool : t.cool = (coolAtLoss ch s).marginLost := loss.cool
    refine ⟨by rw [cool]; rfl, by rw [cool]; rfl, by rw [cool]; rfl,
      fun dry been => pending one fun u h lost => (h.coolingLoss ch input lost).2.2 dry been, fun tin => ?_,
      fun other => ?_, ?_, by rw [cool]; exact loss⟩
    · rw [cool, coolAtLoss, if_pos tin]
      exact ⟨rfl, rfl, rfl, pending one fun u h lost => (h.coolingLoss ch input lost).2.1 tin⟩
    · rw [cool, coolAtLoss, if_neg other]
      exact ⟨rfl, rfl⟩
    · rw [cool, coolAtLoss]
      split <;> rfl

end


section
/-! PROOF. The forcing commands of TEST, and the cooling unit at a forced value. -/

open Sys2Proof Sys2Proof.Machine

namespace Sys2Proof.Machine

/-! ### The cooling unit at an update -/

/-- The dew margin, spelled out (R144). -/
theorem marginNow_eq (s : State) : marginNow s =
    match chanValue s s.coolCfg.tin, chanValue s s.coolCfg.tcab, chanValue s s.coolCfg.rh with
    | some a, some b, some h => some (a - (b - (1000 - max 0 (min h 1000)) / 5))
    | _, _, _ => none := by
  have fifth (n : Int) : n.fdiv 5 = n / 5 := Int.fdiv_eq_ediv_of_nonneg n (by decide)
  simp only [marginNow, dewPoint, clampInt, fifth] <;> rfl

/-- When the condensation guard applies (R143). -/
theorem guardHolds_iff (s : State) : guardHolds s = true ↔
    ∃ m a, marginNow s = some m ∧ chanValue s s.coolCfg.tin = some a ∧ m < s.coolCfg.guard ∧
      a < s.coolCfg.emergency := by
  show (match marginNow s, chanValue s s.coolCfg.tin with
    | some m, some tin => decide (m < s.coolCfg.guard ∧ tin < s.coolCfg.emergency)
    | _, _ => false) = true ↔ _
  cases marginNow s <;> cases chanValue s s.coolCfg.tin <;> simp

/-- The guard lowers the commanded stage to guard_cap (R143). -/
theorem marginTaken_commanded (s : State) : (marginTaken s).commanded =
    if guardHolds s then min s.cool.commanded s.coolCfg.guardCap else s.cool.commanded := by
  by_cases holds : guardHolds s = true
  · rw [if_pos holds]
    simp only [marginTaken, guardDrops, holds, Bool.true_and, decide_eq_true_iff]
    split <;> omega
  · rw [if_neg holds]
    simp [marginTaken, guardDrops, holds]

/-- A permissive stays true while the margin is known and at or above dry_lost (R146). -/
theorem marginTaken_dry (s : State) : (marginTaken s).dry = true ↔
    s.cool.dry = true ∧ ∃ m, marginNow s = some m ∧ s.coolCfg.dryLost ≤ m := by
  simp only [marginTaken, dryLosing]
  cases s.cool.dry <;> cases marginNow s <;> simp

/-- What the update of a channel with value `v` does to the coolant factor (R140). -/
def coolAtUpdate (ch : Fin 128) (v : Int) (s : State) : Cool :=
  if ch = s.coolCfg.tin then (coolantUpdate v s).cool else s.cool

/-- The update of an input of the margin: the coolant factor, and then the margin (R140, R144). -/
theorem coolingUpdate_eq (ch : Fin 128) (v : Int) (s : State) (input : marginInput s ch = true) :
    coolingUpdate ch v s = formMargin { s with cool := coolAtUpdate ch v s } := by
  unfold coolingUpdate coolAtUpdate
  dsimp only
  rw [if_pos input]
  split <;> rfl

theorem coolAtUpdate_rest (ch : Fin 128) (v : Int) (s : State) :
    (coolAtUpdate ch v s).commanded = s.cool.commanded ∧ (coolAtUpdate ch v s).heater = s.cool.heater ∧
      (coolAtUpdate ch v s).dry = s.cool.dry ∧ (coolAtUpdate ch v s).beenDry = s.cool.beenDry := by
  unfold coolAtUpdate
  split <;> exact ⟨rfl, rfl, rfl, rfl⟩

/-- A margin formed anew touches the cooling unit's runtime, and by DRY_LOST the causes and records. -/
theorem formMargin_frame (s : State) : formMargin s =
    { s with cool := marginTaken s, causes := (formMargin s).causes, reports := (formMargin s).reports } := by
  rw [formMargin_eq]
  split
  · rw [raise_frame]
  · rfl

/-- What the cooling unit holds after the update of one of its inputs, apart from the coolant factor (R143 to R146). -/
theorem coolingUpdate_spec (ch : Fin 128) (v : Int) (s : State) (input : marginInput s ch = true) :
    let cool := (coolingUpdate ch v s).cool
    coolingUpdate ch v s = { s with
      cool := cool, causes := (coolingUpdate ch v s).causes, reports := (coolingUpdate ch v s).reports } ∧
    cool.margin = marginNow s ∧
    cool.commanded = (if guardHolds s then min s.cool.commanded s.coolCfg.guardCap else s.cool.commanded) ∧
    cool.heater = (match marginNow s with
      | none => true
      | some m => if m < s.coolCfg.heatOn then true else if s.coolCfg.heatOff < m then false else s.cool.heater) ∧
    (cool.dry = true ↔ s.cool.dry = true ∧ ∃ m, marginNow s = some m ∧ s.coolCfg.dryLost ≤ m) ∧
    (s.cool.dry = true → cool.dry = false → s.cool.beenDry = true →
      (coolingUpdate ch v s).causes[CauseNo.dryLost].pending = true) := by
  let w : State := { s with cool := coolAtUpdate ch v s }
  obtain ⟨commanded, heater, dry, been⟩ := coolAtUpdate_rest ch v s
  have formed : coolingUpdate ch v s = formMargin w := coolingUpdate_eq ch v s input
  have cool : (formMargin w).cool = marginTaken w := congrArg State.cool (formMargin_frame w)
  have guard : guardHolds w = guardHolds s := rfl
  dsimp only
  rw [formed, cool]
  refine ⟨formMargin_frame w, rfl, ?_, ?_, ?_, ?_⟩
  · rw [marginTaken_commanded, guard, show w.cool.commanded = _ from commanded]
  · rw [← heater]
    rfl
  · rw [marginTaken_dry, show w.cool.dry = _ from dry]
    rfl
  · intro was lost known
    rw [marginTaken, show w.cool.dry = true from dry.trans was, Bool.true_and, Bool.not_eq_false'] at lost
    exact formMargin_dryLost w lost (been.trans known)

/-- The coolant factor and F_c after the update of an input: T_in's from COOLANT, and unchanged by the others (R140). -/
theorem coolingUpdate_factor (ch : Fin 128) (v : Int) (s : State) (input : marginInput s ch = true) :
    let cool := (coolingUpdate ch v s).cool
    (ch = s.coolCfg.tin →
      cool.coolantFactor = (evalCurve s.curves[CurveNo.coolant] v).getD s.coolCfg.blind ∧ cool.blindMark = false ∧
      cool.factor = min cool.coolantFactor (s.coolCfg.pumpFactor.toList.getD (runningCount s) 0)) ∧
    (ch ≠ s.coolCfg.tin → cool.coolantFactor = s.cool.coolantFactor ∧ cool.factor = s.cool.factor) := by
  have cool : (coolingUpdate ch v s).cool = marginTaken { s with cool := coolAtUpdate ch v s } := by
    rw [coolingUpdate_eq ch v s input]
    exact congrArg State.cool (formMargin_frame _)
  dsimp only
  rw [cool]
  refine ⟨fun tin => ?_, fun other => ?_⟩
  · rw [coolAtUpdate, if_pos tin]
    exact ⟨rfl, rfl, rfl⟩
  · rw [coolAtUpdate, if_neg other]
    exact ⟨rfl, rfl⟩

/-! ### Commands -/

section command

variable {l : Authority} {no : Octet} {r : ReqArgs} {s : State} (c : Command) (h : ReachedAt l r s)
  (level : c.level.rank ≤ l.rank) (index : c.indexOk = true) (value : c.valueOk = true)
include h level index value

/-- A command that passes its checks is taken (R184). -/
theorem commandRequest_taken (refusal : c.refusal s = none) : inFollowing (commandRequest no c r) s =
    prepare (replyTo no r (if c.clamped then .adjusted else .ok) c.used) (c.effect s) := by
  rw [commandRequest_reached c h level, index, value, refusal]
  rfl

/-- A command whose `n`-th check fails is refused with its number (R184). -/
theorem commandRequest_refused {n : Nat} (refusal : c.refusal s = some n) : inFollowing (commandRequest no c r) s =
    prepare (replyTo no r .refusedState (wordOfNat n)) s := by
  rw [commandRequest_reached c h level, index, value, refusal]
  rfl

end command

/-- The checks of the commands of TEST: the nacelle state, and then one of their own (R162, R170). -/
theorem testChecks_eq (s : State) (ok : Bool) : firstFailing [inTest s, ok] =
    if s.sup.nacelle ≠ .test then some 1 else if ok then none else some 2 := by
  unfold inTest
  by_cases test : s.sup.nacelle = .test
  · cases ok <;> simp [firstFailing, test]
  · simp [firstFailing, test]

theorem testCheck_eq (s : State) :
    firstFailing [inTest s] = if s.sup.nacelle ≠ .test then some 1 else none := by
  unfold inTest
  by_cases test : s.sup.nacelle = .test
  · simp [firstFailing, test]
  · simp [firstFailing, test]

/-- A force makes its channel LIVE at its value and hands out the update (R36, R170). -/
theorem setForce_eq (ch : Fin 128) (v : Int) (s : State) :
    let x := s.channels[ch]
    setForce ch v s = inOpenOrder (readersOf s ch) (updateWork ch v)
      (s.setChannel ch { x with forced := true, state := .live, value := v }) := rfl

end Sys2Proof.Machine

/-- Settles O54. -/
theorem forcingCommandsInTest : Obligations.ForcingCommandsInTest := by
  intro r s ch h index
  have inRange : decide (r.index.toNat < 128) = true := by
    rw [index]
    exact decide_eq_true ch.isLt
  obtain rfl : entryOf r.index = ch := fin_ofNat_of_eq ch _ index
  intro x v reply forced
  have injectChecks : (injectValueCommand r).refusal s = _ := testChecks_eq s x.configured
  have releaseChecks : (releaseForceCommand r).refusal s = _ := testChecks_eq s x.forced
  have causeChecks : (injectCauseCommand r).refusal s = _ := testCheck_eq s
  have inject (test : s.sup.nacelle = .test) (configured : x.configured = true) : exec (.injectValue r) s =
      .next (prepare (reply 11 (if v = r.value.toInt then .ok else .adjusted) (BitVec.ofInt 32 v))
        (setForce (entryOf r.index) v s)) := by
    have taken := commandRequest_taken (no := 11) (injectValueCommand r) h (le_refl _) inRange rfl
      (by rw [injectChecks, if_neg (not_not.2 test), if_pos configured])
    have status : (if (injectValueCommand r).clamped = true then Status.adjusted else .ok) =
        if v = r.value.toInt then .ok else .adjusted := by
      rw [show (injectValueCommand r).clamped = decide (v ≠ r.value.toInt) from rfl]
      by_cases same : v = r.value.toInt <;> simp [same]
    rw [status] at taken
    exact congrArg Host.Outcome.next taken
  refine ⟨fun test configured none_ => ?_, fun test configured one => ?_, fun test empty => ?_,
    fun test forced_ live => ?_, fun test free => ?_, fun test assigned => ?_,
    fun other => ⟨?_, ?_, fun assigned => ?_⟩⟩
  · rw [inject test configured, setForce_eq, none_]
    rfl
  · intro cfg running answer margin guarded
    let u : State := s.setChannel (entryOf r.index) { x with forced := true, state := .live, value := v }
    have input : marginInput u (entryOf r.index) = true := (mem_readersOf s _ .cooling).1 (by rw [one]; simp)
    have handed : setForce (entryOf r.index) v s = coolingUpdate (entryOf r.index) v u := by
      rw [setForce_eq, one]
      rfl
    have known : marginNow u = margin := marginNow_eq u
    have taken := inject test configured
    rw [handed] at taken
    obtain ⟨frame, formed, commanded, heater, dry, rises⟩ := coolingUpdate_spec (entryOf r.index) v u input
    obtain ⟨tin, other⟩ := coolingUpdate_factor (entryOf r.index) v u input
    rw [known] at formed heater dry
    have guard : guardHolds u = true ↔ guarded := by
      rw [guardHolds_iff, known]
      rfl
    refine ⟨_, taken, tin, other, formed, fun holds => ?_, fun fails => ?_, heater, dry, rises, ?_⟩
    · exact commanded.trans (if_pos (guard.2 holds))
    · exact commanded.trans (if_neg (mt guard.1 fails))
    · rw [frame]
      rfl
  · exact congrArg Host.Outcome.next (commandRequest_refused (injectValueCommand r) h (le_refl _) inRange rfl
      (by rw [injectChecks, if_neg (not_not.2 test), if_neg (by rw [empty]; decide)]))
  · have taken := commandRequest_taken (no := 13) (releaseForceCommand r) h (le_refl _) inRange rfl
      (by rw [releaseChecks, if_neg (not_not.2 test), if_pos forced_])
    have released : releaseForce (entryOf r.index) s =
        makeStale (entryOf r.index) 0 { x with forced := false, quiet := 0 } s := if_pos forced_
    obtain ⟨kept, pending⟩ := makeStale_spec (entryOf r.index) 0 { x with forced := false, quiet := 0 } s
    have sup := (makeStale_sup (entryOf r.index) 0 { x with forced := false, quiet := 0 } s).1
    rw [← released] at kept pending sup
    exact ⟨_, congrArg Host.Outcome.next taken, rfl, kept.channels, pending, kept.ring, sup⟩
  · exact congrArg Host.Outcome.next (commandRequest_refused (releaseForceCommand r) h (le_refl _) inRange rfl
      (by rw [releaseChecks, if_neg (not_not.2 test), if_neg (by rw [free]; decide)]))
  · exact congrArg Host.Outcome.next (commandRequest_taken (no := 12) (injectCauseCommand r) h (le_refl _) inRange
      (decide_eq_true assigned) (by rw [causeChecks, if_neg (not_not.2 test)]))
  · exact congrArg Host.Outcome.next (commandRequest_refused (injectValueCommand r) h (le_refl _) inRange rfl
      (by rw [injectChecks, if_pos other]))
  · exact congrArg Host.Outcome.next (commandRequest_refused (releaseForceCommand r) h (le_refl _) inRange rfl
      (by rw [releaseChecks, if_pos other]))
  · exact congrArg Host.Outcome.next (commandRequest_refused (injectCauseCommand r) h (le_refl _) inRange
      (decide_eq_true assigned) (by rw [causeChecks, if_pos other]))

end


section
/-! PROOF. A code processed to a value, and what its reader does with it. -/

open Sys2Proof Sys2Proof.Machine

namespace Sys2Proof.Machine

/-! ### The remap entry that decides -/

/-- Entry `k` of the remap list is active and matches a code (R33). -/
def RemapMatches (x : Channel) (code : Half) (k : Fin 4) : Prop :=
  k.val < x.remapCount ∧ x.remap[k].lo ≤ rawValue x.rawKind code ∧ rawValue x.rawKind code ≤ x.remap[k].hi

/-- The active entries are the first of the list (R33). -/
theorem activeRemap_getElem (x : Channel) (k : Fin 4) (active : k.val < (activeRemap x).length) :
    (activeRemap x)[k.val] = x.remap[k] := by
  simp [activeRemap]

theorem activeRemap_length (x : Channel) : (activeRemap x).length = min x.remapCount 4 := by
  simp [activeRemap]

/-- Without a match no entry decides (R33). -/
theorem remapMatch_none (x : Channel) (code : Half) (unmatched : ∀ k, ¬ RemapMatches x code k) :
    remapMatch x code = none := by
  refine List.find?_eq_none.2 fun e mem matched => ?_
  obtain ⟨k, active, rfl⟩ := List.mem_iff_getElem.1 mem
  have count := activeRemap_length x
  rw [activeRemap_getElem x ⟨k, by omega⟩ active, decide_eq_true_iff] at matched
  exact unmatched ⟨k, by omega⟩ ⟨by dsimp only; omega, matched⟩

/-- The first match decides (R33). -/
theorem remapMatch_some (x : Channel) (code : Half) (k : Fin 4) (here : RemapMatches x code k)
    (first : ∀ j, j < k → ¬ RemapMatches x code j) : remapMatch x code = some x.remap[k] := by
  have count := activeRemap_length x
  obtain ⟨low, matched⟩ := here
  have active : k.val < (activeRemap x).length := by omega
  refine List.find?_eq_some_iff_getElem.2 ⟨decide_eq_true matched, k, active, activeRemap_getElem x k active,
    fun j before => ?_⟩
  have entry := activeRemap_getElem x ⟨j, by omega⟩ (show j < _ by omega)
  rw [Bool.not_eq_true', show (activeRemap x)[j] = _ from entry, decide_eq_false_iff_not]
  exact fun sooner => first ⟨j, by omega⟩ before ⟨show j < _ by omega, sooner⟩

/-! ### Processing a GOOD code -/

section good

variable (ch : Fin 128) (code : Half) (s : State) (configured : s.channels[ch].configured = true)
  (free : s.channels[ch].forced = false)
include configured free

/-- A code that an entry invalidates is dealt with as one of BAD node quality (R33). -/
theorem processCode_invalidated (e : RemapEntry) (found : remapMatch s.channels[ch] code = some e)
    (invalid : e.action = .invalid) : processCode ch code true s = processCode ch code false s := by
  rw [processCode_bad ch code s configured free]
  simp only [processCode, configured, free, found, invalid, Bool.not_true, Bool.false_eq_true, if_false]

/-- A code that an entry substitutes (R33). -/
theorem processCode_substituted (e : RemapEntry) (found : remapMatch s.channels[ch] code = some e)
    (substitutes : e.action = .substitute) : processCode ch code true s =
      codeValue ch e.substitute [] (recordCode s s.channels[ch] code) s := by
  simp only [processCode, configured, free, found, substitutes, Bool.not_true, Bool.false_eq_true, if_false]

/-- A code that no entry decides is scaled and clamped (R34, R35). -/
theorem processCode_scaled (found : remapMatch s.channels[ch] code = none) : processCode ch code true s =
    let z := scaled s.channels[ch] code
    let v := clampInt s.channels[ch].clampLow s.channels[ch].clampHigh z
    codeValue ch v (if v = z then [] else [.own CauseNo.channelClamped code]) (recordCode s s.channels[ch] code) s := by
  simp only [processCode, configured, free, found, Bool.not_true, Bool.false_eq_true, if_false]

end good

/-! ### Sections at an update -/

/-- A section takes its thermal factor from STACK (R82). -/
theorem heatsinkUpdate_eq (i : Fin 6) (v : Int) (s : State) (present : s.sects[i].present = true) :
    let f := evalCurve s.curves[CurveNo.stack] v
    heatsinkUpdate i v s = s.setSect i { s.sects[i] with
      thermal := f.getD s.power.sectionBlind, blind := false, curveFallback := f.isNone } := by
  simp only [heatsinkUpdate, present, Bool.not_true, Bool.false_eq_true, if_false]
  cases evalCurve s.curves[CurveNo.stack] v <;> rfl

/-- The one value that is FAULT (R72). -/
theorem nodeStatus_fault_iff (v : Int) : nodeStatus v = .fault ↔ v = 3 := by
  unfold nodeStatus
  by_cases one : v = 1
  · simp [one]
  · by_cases two : v = 2
    · simp [two]
    · by_cases three : v = 3 <;> simp [one, two, three]

section status

variable (i : Fin 6) (v : Int) (s : State) (present : s.sects[i].present = true)
include present

/-- FAULT isolates an ONLINE or HELD section and holds it (R78). -/
theorem statusUpdate_fault (fault : v = 3) : statusUpdate i v s =
    raise CauseNo.sectionFault .isolate (.sect i) (some 3) (s.setSect i { s.sects[i] with
      faultHold := true
      state := if s.sects[i].state = .online ∨ s.sects[i].state = .held then .isolated else s.sects[i].state }) := by
  subst fault
  simp only [statusUpdate, present, Bool.not_true, Bool.false_eq_true, if_false, show nodeStatus 3 = .fault from rfl]

/-- Without FAULT an ISOLATED section is no longer held by one (R78). -/
theorem statusUpdate_isolated (sound : v ≠ 3) (isolated : s.sects[i].state = .isolated) :
    statusUpdate i v s = s.setSect i { s.sects[i] with faultHold := false } := by
  have noFault := mt (nodeStatus_fault_iff v).1 sound
  cases node : nodeStatus v with
  | fault => exact absurd node noFault
  | notReady | ready | running =>
    simp only [statusUpdate, present, isolated, node, Bool.not_true, Bool.false_eq_true, if_false]

/-- Without FAULT a HELD section stays as it is (R76). -/
theorem statusUpdate_still (sound : v ≠ 3) (still : s.sects[i].state = .held ∨ s.sects[i].state = .absent) :
    statusUpdate i v s = s := by
  have noFault := mt (nodeStatus_fault_iff v).1 sound
  cases node : nodeStatus v with
  | fault => exact absurd node noFault
  | notReady | ready | running =>
    obtain state | state := still <;>
      simp only [statusUpdate, present, state, node, Bool.not_true, Bool.false_eq_true, if_false]

/-- READY and RUNNING leave a section that is not ISOLATED as it is (R76). -/
theorem statusUpdate_serves (serves : v = 1 ∨ v = 2) (free : s.sects[i].state ≠ .isolated) :
    statusUpdate i v s = s := by
  have node : nodeStatus v = .ready ∨ nodeStatus v = .running := by
    obtain rfl | rfl := serves
    · exact .inl rfl
    · exact .inr rfl
  cases state : s.sects[i].state with
  | isolated => exact absurd state free
  | online | held | absent =>
    obtain node | node := node <;>
      simp only [statusUpdate, present, state, node, Bool.not_true, Bool.false_eq_true, if_false]

/-- NOT_READY holds an ONLINE section (R76). -/
theorem statusUpdate_drops (notReady : v ≠ 1 ∧ v ≠ 2 ∧ v ≠ 3) (online : s.sects[i].state = .online) :
    statusUpdate i v s = raise CauseNo.sectionDropped .none (.sect i) (some (signedFigure v))
      (s.setSect i { s.sects[i] with state := .held }) := by
  obtain ⟨one, two, three⟩ := notReady
  have node : nodeStatus v = .notReady := by simp only [nodeStatus, one, two, three, if_false]
  simp only [statusUpdate, present, online, node, Bool.not_true, Bool.false_eq_true, if_false]

end status

/-! ### The vane at an update -/

/-- A vane value ends a slew when it has the sign opposite the direction or is within stop_misalign (R121). -/
theorem vaneUpdate_eq (v : Int) (s : State) :
    let m := max (-1800) (min v 1799)
    let ends : Prop := s.yaw.mode = .slewing ∧ (s.yaw.turn = .cw ∧ m < 0 ∨ s.yaw.turn = .ccw ∧ 0 < m ∨
      m.natAbs ≤ s.yawCfg.stopMisalign)
    (ends → vaneUpdate v s = toStopping false s) ∧ (¬ ends → vaneUpdate v s = s) := by
  intro m ends
  have decides : (s.yaw.mode = .slewing ∧ ((match s.yaw.turn with
      | .cw => decide (m < 0)
      | .ccw => decide (0 < m)) = true ∨ m.natAbs ≤ s.yawCfg.stopMisalign)) ↔ ends := by
    cases turn : s.yaw.turn <;> simp [ends, turn]
  exact ⟨fun h => if_pos (decides.2 h), fun h => if_neg (mt decides.1 h)⟩

end Sys2Proof.Machine

end


section
/-! PROOF. The yaw at a heading update: anchoring, steps of twist, the hard limit, and the end of an unwind. -/

open Sys2Proof Sys2Proof.Machine

namespace Sys2Proof.Machine

/-! ### After a step of twist -/

/-- A slew, spelled out (R117). -/
theorem inSlew_iff (y : Yaw) : inSlew y = true ↔
    y.mode = .slewing ∨ (y.mode = .unwinding ∨ y.mode = .jogging) ∧ y.phase = .slew := by
  unfold inSlew
  cases y.mode <;> simp

/-- The motors drive twist further past the hard limit, spelled out (R108, R112). -/
theorem drivesPastHard_iff (s : State) : drivesPastHard s = true ↔
    (s.yaw.mode = .slewing ∨ (s.yaw.mode = .unwinding ∨ s.yaw.mode = .jogging) ∧ s.yaw.phase = .slew) ∧
      s.yawCfg.twistHard ≤ s.yaw.twist.natAbs ∧
      (s.yaw.turn = .cw ∧ 0 ≤ s.yaw.twist ∨ s.yaw.turn = .ccw ∧ s.yaw.twist ≤ 0) := by
  have direction : increasesTwist s.yaw.turn s.yaw.twist = true ↔
      s.yaw.turn = .cw ∧ 0 ≤ s.yaw.twist ∨ s.yaw.turn = .ccw ∧ s.yaw.twist ≤ 0 := by
    unfold increasesTwist
    cases s.yaw.turn <;> simp
  rw [drivesPastHard, Bool.and_eq_true, Bool.and_eq_true, inSlew_iff, direction, and_assoc, hardTwist,
    decide_eq_true_iff]

section settle

variable (s : State)

/-- Without a slew neither the hard limit nor unwind_target stops anything (R112, R127). -/
theorem settleTwist_still (still : ¬ inSlew s.yaw = true) : unwindCheck (hardStop s) = s := by
  have notDriving : ¬ drivesPastHard s = true := fun drives =>
    still ((inSlew_iff _).2 ((drivesPastHard_iff s).1 drives).1)
  have notUnwinding : ¬ (s.yaw.mode = .unwinding ∧ s.yaw.phase = .slew ∧
      s.yaw.twist.natAbs ≤ s.yawCfg.unwindTarget) := fun met =>
    still ((inSlew_iff _).2 (.inr ⟨.inl met.1, met.2.1⟩))
  rw [hardStop, if_neg notDriving, unwindCheck, if_neg notUnwinding]

/-- A slew that drives past the hard limit stops with the end mark set (R112). -/
theorem settleTwist_drives (drives : drivesPastHard s = true) : unwindCheck (hardStop s) = toStopping true s := by
  rw [hardStop, if_pos drives]
  exact if_neg fun met => by cases met.1

/-- An unwind stops at unwind_target (R127). -/
theorem settleTwist_met (idle : ¬ drivesPastHard s = true)
    (met : s.yaw.mode = .unwinding ∧ s.yaw.phase = .slew ∧ s.yaw.twist.natAbs ≤ s.yawCfg.unwindTarget) :
    unwindCheck (hardStop s) = toStopping false s := by
  rw [hardStop, if_neg idle]
  exact if_pos met

theorem settleTwist_kept (idle : ¬ drivesPastHard s = true)
    (apart : ¬ (s.yaw.mode = .unwinding ∧ s.yaw.phase = .slew ∧ s.yaw.twist.natAbs ≤ s.yawCfg.unwindTarget)) :
    unwindCheck (hardStop s) = s := by
  rw [hardStop, if_neg idle]
  exact if_neg apart

end settle

/-- STOPPING with the end mark (R112, R123). -/
theorem toStopping_true (s : State) : toStopping true s =
    { s with
      yaw := { s.yaw with mode := .stopping, groupB := false, coastCount := 0, endMark := true }
      lines := { s.lines with brakeHold := false } } := by
  simp only [toStopping, Bool.or_true]
  rfl

/-! ### A hard-limit crossing -/

/-- The rise and the mode record of a hard-limit crossing (R112, R172). -/
def crossed (twist : Int) (s : State) : State :=
  clearYawAuto (raise CauseNo.twistHard .nacelleStop .none (twistDegrees twist) s)

/-- They do not read the yaw's runtime. -/
theorem crossed_with_yaw (twist : Int) (s : State) (y : Yaw) :
    crossed twist { s with yaw := y } = { crossed twist s with yaw := y } := by
  rw [crossed, raise_with_yaw]
  rfl

theorem crossed_yaw (twist : Int) (s : State) : (crossed twist s).yaw = s.yaw := raise_yaw ..

theorem crossed_nacelle (twist : Int) (s : State) : (crossed twist s).sup.nacelle = s.sup.nacelle := by
  show (raise _ _ _ _ s).sup.nacelle = _
  rw [raise_sup]

/-- In OPERATING the stop sends the yaw to HELD from every state, and nothing is left to settle (R112, R124; log 27). -/
theorem hardCrossing_operating (s : State) (operating : s.sup.nacelle = .operating) :
    unwindCheck (hardStop (hardCrossing s)) =
      yawToHeld (holdOnline (putNacelle .stopped (.cause CauseNo.twistHard) (crossed s.yaw.twist s))) := by
  have stop : stopDemand (.cause CauseNo.twistHard) (crossed s.yaw.twist s) =
      yawToHeld (holdOnline (putNacelle .stopped (.cause CauseNo.twistHard) (crossed s.yaw.twist s))) :=
    stopDemand_of_operating _ _ ((crossed_nacelle ..).trans operating)
  have held : (stopDemand (.cause CauseNo.twistHard) (crossed s.yaw.twist s)).yaw.mode = .held := by
    rw [stop]
    exact yawToHeld_mode _
  have stays : hardCrossing s = stopDemand (.cause CauseNo.twistHard) (crossed s.yaw.twist s) := by
    show yawAtCrossing (stopDemand _ (crossed s.yaw.twist s)) = _
    rw [yawAtCrossing, held]
  rw [stays, settleTwist_still, stop]
  rw [inSlew, held]
  exact Bool.noConfusion

/-- Elsewhere the yaw acts by its state (R112). -/
theorem hardCrossing_other (s : State) (other : s.sup.nacelle ≠ .operating) :
    hardCrossing s = yawAtCrossing (crossed s.yaw.twist s) :=
  congrArg yawAtCrossing (stopDemand_of_not_operating _ _ (by
    show (crossed s.yaw.twist s).sup.nacelle ≠ _
    rw [crossed_nacelle]
    exact other))

section crossing

variable (s : State)

theorem yawAtCrossing_slew (slewing : inSlew s.yaw = true) :
    unwindCheck (hardStop (yawAtCrossing s)) = toStopping true s := by
  have stops : yawAtCrossing s = toStopping true s := by
    obtain mode | ⟨mode | mode, phase⟩ := (inSlew_iff _).1 slewing
    · simp only [yawAtCrossing, mode]
    · simp only [yawAtCrossing, mode, phase, if_true]
    · simp only [yawAtCrossing, mode, phase, if_true]
  rw [stops]
  exact settleTwist_still _ Bool.noConfusion

theorem yawAtCrossing_stopping (stopping : s.yaw.mode = .stopping ∨ s.yaw.mode = .braking) :
    unwindCheck (hardStop (yawAtCrossing s)) = { s with yaw := { s.yaw with endMark := true } } := by
  obtain mode | mode := stopping
  · simp only [yawAtCrossing, mode]
    exact settleTwist_still _ Bool.noConfusion
  · simp only [yawAtCrossing, mode]
    exact settleTwist_still _ Bool.noConfusion

theorem yawAtCrossing_held (held : s.yaw.mode = .held) : unwindCheck (hardStop (yawAtCrossing s)) = s := by
  simp only [yawAtCrossing, held]
  exact settleTwist_still _ (by simp [inSlew, held])

theorem yawAtCrossing_rests (still : ¬ inSlew s.yaw = true) (stopping : s.yaw.mode ≠ .stopping)
    (braking : s.yaw.mode ≠ .braking) : unwindCheck (hardStop (yawAtCrossing s)) = yawToHeld s := by
  have rests : yawAtCrossing s = yawToHeld s := by
    cases mode : s.yaw.mode with
    | slewing => exact absurd ((inSlew_iff _).2 (.inl mode)) still
    | unwinding | jogging =>
      have phase : s.yaw.phase ≠ .slew := fun phase => still ((inSlew_iff _).2 (.inr ⟨by simp [mode], phase⟩))
      simp only [yawAtCrossing, mode, phase, if_false]
    | releasing | parked | unwindWait => simp only [yawAtCrossing, mode]
    | stopping => exact absurd mode stopping
    | braking => exact absurd mode braking
    | held => simp only [yawAtCrossing, mode, yawToHeld, if_true]
  have held : ¬ inSlew (yawToHeld s).yaw = true := by
    rw [inSlew, yawToHeld_mode]
    exact Bool.noConfusion
  rw [rests, settleTwist_still _ held]

end crossing

/-! ### The heading at an update -/

/-- The first heading anchors (R109; log 15). -/
theorem headingUpdate_anchors (v : Int) (s : State) (absent : s.yaw.anchor = none) : headingUpdate v s =
    { s with yaw := { s.yaw with headingLost := false, anchor := some (headingOf v) } } := by
  simp only [headingUpdate, absent]

/-- Twist after the step from the anchor to a heading (R109). -/
def twistAt (v : Int) (a : Nat) (s : State) : Int :=
  clampTwist (s.yaw.twist + headingStep (headingOf v) a)

/-- The state once twist has taken the step (R109, R110). -/
def twistMoved (v : Int) (a : Nat) (s : State) : State :=
  { s with yaw := { s.yaw with
      headingLost := false, anchor := some (headingOf v), reanchor := false, twist := twistAt v a s } }

section heading

variable (v : Int) (s : State) (a : Nat) (anchor : s.yaw.anchor = some a)
include anchor

/-- A jump is discarded (R109). -/
theorem headingUpdate_discarded (anchored : s.yaw.reanchor = false)
    (jump : s.yawCfg.maxStep < (headingStep (headingOf v) a).natAbs) : headingUpdate v s =
      raise CauseNo.headingJump .none .none (some (unsignedFigure (headingOf v)))
        { s with yaw := { s.yaw with headingLost := false } } := by
  simp only [headingUpdate, anchor, anchored, jump, Bool.not_false, decide_true, Bool.and_self, if_true]

variable (within : s.yaw.reanchor = true ∨ (headingStep (headingOf v) a).natAbs ≤ s.yawCfg.maxStep)
include within

/-- A heading that is taken moves the anchor, and twist by the step (R109). -/
theorem headingUpdate_taken : headingUpdate v s =
    if twistAt v a s = s.yaw.twist then twistMoved v a s
    else unwindCheck (hardStop (hardCheck (hardTwist s.yawCfg s.yaw.twist) (twistMoved v a s))) := by
  have taken : ¬ (!s.yaw.reanchor && decide (s.yawCfg.maxStep < (headingStep (headingOf v) a).natAbs)) = true := by
    obtain marked | near := within
    · simp [marked]
    · simp [Nat.not_lt.2 near]
  have step : headingUpdate v s = advanceTwist (headingStep (headingOf v) a)
      { s with yaw := { s.yaw with headingLost := false, anchor := some (headingOf v), reanchor := false } } := by
    unfold headingUpdate
    simp only [anchor]
    exact if_neg taken
  rw [step]
  by_cases same : twistAt v a s = s.yaw.twist
  · rw [if_pos same, twistMoved, same]
    exact if_pos same
  · rw [if_neg same]
    exact if_neg same

/-- With no crossing the step is settled by the slew alone (R112, R127). -/
theorem headingUpdate_uncrossed (moved : twistAt v a s ≠ s.yaw.twist)
    (inside : s.yawCfg.twistHard ≤ s.yaw.twist.natAbs ∨ ¬ s.yawCfg.twistHard ≤ (twistAt v a s).natAbs) :
    headingUpdate v s = unwindCheck (hardStop (twistMoved v a s)) := by
  have uncrossed : ¬ (!hardTwist s.yawCfg s.yaw.twist && hardTwist s.yawCfg (twistAt v a s)) = true := by
    simp only [hardTwist]
    obtain hard | free := inside
    · simp [hard]
    · simp [free]
  rw [headingUpdate_taken v s a anchor within, if_neg moved]
  exact congrArg (fun u => unwindCheck (hardStop u)) (if_neg uncrossed)

/-- A step to the hard limit crosses it (R112). -/
theorem headingUpdate_crossed (free : ¬ s.yawCfg.twistHard ≤ s.yaw.twist.natAbs)
    (hard : s.yawCfg.twistHard ≤ (twistAt v a s).natAbs) :
    headingUpdate v s = unwindCheck (hardStop (hardCrossing (twistMoved v a s))) := by
  have crosses : (!hardTwist s.yawCfg s.yaw.twist && hardTwist s.yawCfg (twistAt v a s)) = true := by
    simp [hardTwist, free, hard]
  have moved : twistAt v a s ≠ s.yaw.twist := fun same => free (same ▸ hard)
  rw [headingUpdate_taken v s a anchor within, if_neg moved]
  exact congrArg (fun u => unwindCheck (hardStop u)) (if_pos crosses)

end heading

end Sys2Proof.Machine

end


section
/-! PROOF. A sample in a WIDE window: from the cell to its channel, and from its channel to the one reader. -/

open Sys2Proof Sys2Proof.Machine

namespace Sys2Proof.Machine

/-- The state whose round out stands at the position after `pos` (R10). -/
def positionTaken (o : RoundOut) (pos : Nat) (s : State) : State :=
  { s with ring := { s.ring with roundOut := some { o with nextPos := pos + 1 } } }

/-- The channel has taken a code as its value `v` at that position (R31). -/
def valueTaken (o : RoundOut) (pos : Nat) (ch : Fin 128) (code : Half) (v : Int) (s : State) : State :=
  (positionTaken o pos s).setChannel ch { recordCode s s.channels[ch] code with state := .live, value := v }

/-- A GOOD sample in a slot of a WIDE window is processed as its channel's code, and the cell is forwarded (R10, R22,
R25). -/
theorem nodeInCell_wideSample {c : Cell} {s : State} {o : RoundOut} {pos : Nat} {i : Fin 32} {ch : Fin 128}
    (returning : Returning s o pos) (node : 9 ≤ pos) (inside : pos < o.last) (empty : s.lowHalf = none)
    (plan : ∀ k : Fin 16, s.plan[k].enable = true → s.plan[k].slot ≠ pos) (owner : ownerOf s pos = some i)
    (width : s.windows[i].width = .wide) (fed : ch.val = s.windows[i].firstChannel.val + (pos - s.windows[i].base))
    (passes : cellPasses c pos = true) (kind : c.kind = Kind.sample) (good : c.ext = 1) : nodeInCell c s =
      sendTower c (processCode ch (c.payload.extractLsb' 0 16) true (positionTaken o pos s)) := by
  have content : slotContent c pos = .sample (c.payload.extractLsb' 0 16) true := by
    rw [slotContent_eq, if_neg (by simp [passes]), if_pos kind, good]
    rfl
  rw [nodeInCell_returning c returning inside, checked_of_passes 1 c pos s passes, upstreamSlot_node c pos _ node]
  show nodeSlotUp c pos (positionTaken o pos s) = _
  rw [nodeSlotUp_node c pos (positionTaken o pos s) (planFor_eq_none (positionTaken o pos s) pos plan), content,
    handOver_wide (positionTaken o pos s) pos i ch _ owner width fed, settleHalf_none _ (positionTaken o pos s) empty]
  rfl

/-- The first active entry that matches, or none (R33). -/
theorem remapMatch_eq (x : Channel) (code : Half) (m : Option (Fin 4))
    (unmatched : m = none → ∀ k, ¬ RemapMatches x code k)
    (matched : ∀ k, m = some k → RemapMatches x code k ∧ ∀ j, j < k → ¬ RemapMatches x code j) :
    remapMatch x code = m.map (x.remap[·]) := by
  cases m with
  | none => exact remapMatch_none x code (unmatched rfl)
  | some k => exact remapMatch_some x code k (matched k rfl).1 (matched k rfl).2

end Sys2Proof.Machine

/-- Settles O17: the cell's code is processed to its value, and the one reader's work follows in its own unit. -/
theorem wideSampleBecomesChannelValue : Obligations.WideSampleBecomesChannelValue := by
  intro c s o pos i ch returning node inside empty plan owner width fed passes kind good configured free code x z raw
    matching m unmatched matched
  have arrival : exec (.nodeSlotArrival c) s = .next (sendTower c (processCode ch code true (positionTaken o pos s))) :=
    congrArg Host.Outcome.next
      (nodeInCell_wideSample returning node inside empty plan owner width fed passes kind good)
  have entry (k : Fin 4) : RemapMatches x code k ↔ matching k := by
    rw [RemapMatches, rawValue_eq]
  have found : remapMatch x code = m.map (x.remap[·]) := by
    simp only [← entry] at unmatched matched
    exact remapMatch_eq x code m unmatched matched
  constructor
  · intro k here invalid
    rw [here, Option.map_some] at found
    rw [arrival, processCode_invalidated ch code (positionTaken o pos s) configured free x.remap[k] found invalid]
    rfl
  intro substitutes v kept t does
  let taken := positionTaken o pos s
  let u := valueTaken o pos ch code v s
  have processed : (kept → processCode ch code true taken = giveUpdate ch v [] u) ∧
      (¬ kept → processCode ch code true taken = giveUpdate ch v [.own CauseNo.channelClamped code] u) := by
    cases m with
    | none =>
      have scale := processCode_scaled ch code taken configured free found
      refine ⟨fun holds => ?_, fun fails => ?_⟩
      · have same : v = z := holds.resolve_left fun other => other rfl
        exact scale.trans (congrArg (fun own => codeValue ch v own (recordCode taken x code) taken) (if_pos same))
      · have clamped : v ≠ z := fun same => fails (.inr same)
        exact scale.trans (congrArg (fun own => codeValue ch v own (recordCode taken x code) taken) (if_neg clamped))
    | some k =>
      have substituted := processCode_substituted ch code taken configured free x.remap[k] found
        (substitutes k rfl)
      exact ⟨fun _ => substituted, fun fails => absurd (.inl (Option.some_ne_none k)) fails⟩
  obtain ⟨unclamped, clamped⟩ := processed
  have sent : sendTower c u = t := rfl
  refine ⟨fun unread => ⟨fun holds => ?_, fun fails => ?_⟩, fun holds => ?_⟩
  · show exec _ s = _
    rw [arrival, unclamped holds, giveUpdate, show readersOf u ch = [] from unread]
    rfl
  · show exec _ s = _
    rw [arrival, clamped fails, giveUpdate, show readersOf u ch = [] from unread, ← sent, ← sendTower_raise]
    rfl
  have works {y : Reader} {w : State} (one : readersOf s ch = [y]) (work : updateWork ch v y u = w) :
      does (sendTower c w) := by
    show exec _ s = _
    rw [arrival, unclamped holds, giveUpdate, show readersOf u ch = [y] from one, List.nil_append, inOpenOrder_single,
      work]
  have reads {y : Reader} (one : readersOf s ch = [y]) := (mem_readersOf s ch y).1 (by rw [one]; simp)
  refine ⟨fun j one => works one rfl, fun j one => works one (heatsinkUpdate_eq j v u (reads one).1), fun j one => ?_,
    fun one => ?_, fun one => ?_⟩
  · intro y put
    have present : u.sects[j].present = true := (reads one).1
    refine ⟨fun fault => ?_, fun sound isolated => works one (statusUpdate_isolated j v u present sound isolated),
      fun serves free => works one (statusUpdate_serves j v u present serves free),
      fun sound still => works one (statusUpdate_still j v u present sound still), fun n1 n2 n3 online => ?_⟩
    · have isolates := works one (statusUpdate_fault j v u present fault)
      rw [sendTower_raise] at isolates
      exact isolates
    · have drops := works one (statusUpdate_drops j v u present ⟨n1, n2, n3⟩ online)
      rw [sendTower_raise] at drops
      exact drops
  · intro h y
    refine ⟨fun absent => works one (headingUpdate_anchors v u absent), fun a anchor => ?_⟩
    intro d twist moved hard
    refine ⟨fun anchored jump => ?_, fun within => ?_⟩
    · have bounded : unsignedFigure (headingOf v) = BitVec.ofNat 16 h :=
        congrArg (BitVec.ofNat 16) (Nat.min_eq_left (show h ≤ 65535 by omega))
      have discards := works one (headingUpdate_discarded v u a anchor anchored jump)
      rw [sendTower_raise, bounded] at discards
      exact discards
    intro mode slewing drives met stopped marked kept rested
    let step := twistMoved v a u
    have drivesIff : drivesPastHard step = true ↔ drives := drivesPastHard_iff step
    have slewIff : inSlew step.yaw = true ↔ slewing := inSlew_iff step.yaw
    refine ⟨fun same => ?_, fun moves inside => ?_, fun free crosses => ?_⟩
    · exact works one ((headingUpdate_taken v u a anchor within).trans (if_pos same))
    · have settles := headingUpdate_uncrossed v u a anchor within moves inside
      refine ⟨fun drive => ?_, fun idle meets => ?_, fun idle apart => ?_⟩
      · exact works one (settles.trans ((settleTwist_drives step (drivesIff.2 drive)).trans (toStopping_true step)))
      · exact works one (settles.trans ((settleTwist_met step (mt drivesIff.1 idle) meets).trans
          (toStopping_false step)))
      · exact works one (settles.trans (settleTwist_kept step (mt drivesIff.1 idle) apart))
    · intro record
      have settles := headingUpdate_crossed v u a anchor within free crosses
      let rise := raise CauseNo.twistHard .nacelleStop .none (twistDegrees twist) u
      have risen : { raise CauseNo.twistHard .nacelleStop .none (some (signedFigure (twist.tdiv 10))) t with
            sup := { s.sup with mode := record } } =
          { t with causes := rise.causes, reports := rise.reports, sup := { s.sup with mode := record } } := by
        rw [← sent, ← sendTower_raise, raise_frame]
        rfl
      let after : State :=
        { step with causes := rise.causes, reports := rise.reports, sup := { s.sup with mode := record } }
      have crossing : crossed twist step = after := by
        show crossed twist { u with yaw := step.yaw } = _
        rw [crossed_with_yaw, crossed, raise_frame]
        rfl
      rw [risen]
      intro crossed halted
      have still : ¬ slewing → ¬ inSlew step.yaw = true := mt slewIff.1
      refine ⟨fun operating => ?_, fun other => ?_⟩
      · have stops := settles.trans (hardCrossing_operating step operating)
        rw [show step.yaw.twist = twist from rfl, crossing] at stops
        exact ⟨fun moving => works one (stops.trans (if_neg moving)),
          fun held => works one (stops.trans (if_pos held))⟩
      · rw [hardCrossing_other step other, show step.yaw.twist = twist from rfl, crossing] at settles
        refine ⟨fun slews => ?_, fun stopping => ?_, fun rest notStopping notBraking moving => ?_, fun held => ?_⟩
        · exact works one (settles.trans ((yawAtCrossing_slew after (slewIff.2 slews)).trans (toStopping_true after)))
        · exact works one (settles.trans (yawAtCrossing_stopping after stopping))
        · exact works one (settles.trans ((yawAtCrossing_rests after (still rest) notStopping notBraking).trans
            (if_neg moving)))
        · exact works one (settles.trans (yawAtCrossing_held after held))
  · intro m ends
    obtain ⟨ending, going⟩ := vaneUpdate_eq v u
    exact ⟨fun h => works one ((ending h).trans (toStopping_false u)), fun h => works one (going h)⟩

end


section
/-! PROOF. Curves: their active points in order, the answer along them, and the write of a count. -/

open Sys2Proof Sys2Proof.Machine

namespace Sys2Proof.Machine

/-! ### Active points -/

theorem activePoints_length (c : Curve) : (activePoints c).length = min c.count 8 := by
  simp [activePoints]

/-- The active points are the first of the curve (R42). -/
theorem activePoints_getElem (c : Curve) (k : Fin 8) (active : k.val < (activePoints c).length) :
    (activePoints c)[k.val] = c.points[k] := by
  simp [activePoints]

theorem mem_activePoints {c : Curve} {p : Point} (mem : p ∈ activePoints c) :
    ∃ k : Fin 8, k.val < c.count ∧ c.points[k] = p := by
  obtain ⟨k, active, rfl⟩ := List.mem_iff_getElem.1 mem
  have count := activePoints_length c
  exact ⟨⟨k, by omega⟩, by dsimp only; omega, (activePoints_getElem c ⟨k, by omega⟩ active).symm⟩

/-- The abscissas of the active points ascend when each is below every later one (R42). -/
theorem activePoints_pairwise_iff (c : Curve) : (activePoints c).Pairwise (fun p q => p.x < q.x) ↔
    ∀ j k : Fin 8, j < k → k.val < c.count → c.points[j].x < c.points[k].x := by
  have count := activePoints_length c
  rw [List.pairwise_iff_getElem]
  constructor
  · intro rises j k before active
    have later : k.val < (activePoints c).length := by omega
    have sooner : j.val < (activePoints c).length := Nat.lt_trans before later
    have below := rises j k sooner later before
    rwa [activePoints_getElem c j sooner, activePoints_getElem c k later] at below
  · intro rises j k sooner later before
    have below := rises ⟨j, by omega⟩ ⟨k, by omega⟩ before (by dsimp only; omega)
    rwa [← activePoints_getElem c ⟨j, by omega⟩ sooner, ← activePoints_getElem c ⟨k, by omega⟩ later] at below

theorem curveOrdered_iff (c : Curve) : curveOrdered c = true ↔
    ∀ j k : Fin 8, j < k → k.val < c.count → c.points[j].x < c.points[k].x := by
  rw [curveOrdered, ascending_iff, List.pairwise_map, activePoints_pairwise_iff]

/-! ### The answer of a curve -/

/-- A segment answers between bounds of its two ordinates: the quotient is a share of the rise, and the rounding down
cannot pass a whole bound (R45). -/
theorem segmentAt_bounds {p q : Point} {x : Int} {lo hi : Nat} (after : p.x ≤ x) (before : x < q.x)
    (atP : lo ≤ p.y ∧ p.y ≤ hi) (atQ : lo ≤ q.y ∧ q.y ≤ hi) : lo ≤ segmentAt p q x ∧ segmentAt p q x ≤ hi := by
  obtain ⟨pLow, pHigh⟩ := atP
  obtain ⟨qLow, qHigh⟩ := atQ
  have width : 0 < q.x - p.x := by omega
  have step : 0 ≤ x - p.x := by omega
  have within : x - p.x ≤ q.x - p.x := by omega
  have lower : ((lo : Int) - p.y) * (q.x - p.x) ≤ (x - p.x) * ((q.y : Int) - p.y) := calc
    _ ≤ ((lo : Int) - p.y) * (x - p.x) := mul_le_mul_of_nonpos_left within (by omega)
    _ ≤ ((q.y : Int) - p.y) * (x - p.x) := mul_le_mul_of_nonneg_right (by omega) step
    _ = _ := mul_comm _ _
  have upper : (x - p.x) * ((q.y : Int) - p.y) ≤ ((hi : Int) - p.y) * (q.x - p.x) := calc
    _ = ((q.y : Int) - p.y) * (x - p.x) := mul_comm _ _
    _ ≤ ((hi : Int) - p.y) * (x - p.x) := mul_le_mul_of_nonneg_right (by omega) step
    _ ≤ _ := mul_le_mul_of_nonneg_left within (by omega)
  have floor := Int.le_ediv_of_mul_le width lower
  have ceiling := Int.ediv_le_of_le_mul width upper
  rw [segmentAt, Int.fdiv_eq_ediv_of_nonneg _ width.le]
  omega

/-- The answer along points stays within bounds of their ordinates (R45). -/
theorem evalPoints_bounds {lo hi : Nat} (l : List Point) (x : Int) (points : l ≠ [])
    (within : ∀ p ∈ l, lo ≤ p.y ∧ p.y ≤ hi) : lo ≤ evalPoints l x ∧ evalPoints l x ≤ hi := by
  fun_induction evalPoints l x with
  | case1 => exact absurd rfl points
  | case2 p => exact_mod_cast within p (by simp)
  | case3 p => exact_mod_cast within p (by simp)
  | case4 p q rest x past before =>
    exact segmentAt_bounds (by omega) before (within p (by simp)) (within q (by simp))
  | case5 p q rest x past reached ih => exact ih (by simp) fun r mem => within r (by simp [mem])

/-- At or below the first abscissa the first ordinate answers (R45). -/
theorem evalPoints_first (l : List Point) (x : Int) (points : l ≠ []) (low : x ≤ (l.head points).x) :
    evalPoints l x = (l.head points).y := by
  fun_cases evalPoints l x with
  | case1 => exact absurd rfl points
  | case2 => rfl
  | case3 => rfl
  | case4 p q rest x past => exact absurd low past
  | case5 p q rest x past => exact absurd low past

/-- From the last of ascending abscissas on the last ordinate answers (R45). -/
theorem evalPoints_last (l : List Point) (x : Int) (points : l ≠ []) (rises : l.Pairwise fun p q => p.x < q.x)
    (high : ∀ p ∈ l, p.x ≤ x) : evalPoints l x = (l.getLast points).y := by
  fun_induction evalPoints l x with
  | case1 => exact absurd rfl points
  | case2 => rfl
  | case3 p q rest x first =>
    have above := List.rel_of_pairwise_cons rises (List.mem_cons_self (a := q))
    have reached := high q (by simp)
    omega
  | case4 p q rest x past before => exact absurd (high q (by simp)) (by omega)
  | case5 p q rest x past reached ih => exact ih (by simp) rises.of_cons fun r mem => high r (by simp [mem])

/-! ### The write of a count -/

/-- A count is clamped to 8 (R48, R178 step 6). -/
theorem take_count (w : Word) : Form.take (.unsigned 0 8) w =
    some (((min w.toNat 8 : Nat) : Int), decide (8 < w.toNat)) := by
  have clamped : clampInt 0 8 w.toNat = ((min w.toNat 8 : Nat) : Int) := by
    unfold clampInt
    omega
  have above : ((min w.toNat 8 : Nat) : Int) ≠ w.toNat ↔ 8 < w.toNat := by omega
  show some (clampInt 0 8 w.toNat, decide (clampInt 0 8 w.toNat ≠ w.toNat)) = _
  rw [clamped, decide_eq_decide.2 above]

/-- A write of the count or of an abscissa is taken when the active abscissas then ascend (R47, R48). -/
theorem writeCurve_ordered (i : Fin 5) {f : Nat} (z : Int) (s : State) (ordered : f ≤ 8) : writeCurve i f z s =
    if curveOrdered (curveWith s.curves[i] f z) = true then some (s.setCurve i (curveWith s.curves[i] f z))
    else none := by
  by_cases order : curveOrdered (curveWith s.curves[i] f z) = true
  · simp [-Fin.getElem_fin, writeCurve, order]
  · simp [-Fin.getElem_fin, writeCurve, order, ordered]

end Sys2Proof.Machine

/-- Settles O57: the answer is taken along the active points, which are the first `count` of the curve. -/
theorem curveAnswerStaysWithinOrdinates : Obligations.CurveAnswerStaysWithinOrdinates := by
  intro c x lo hi isSet capacity rises ordinates
  have count := activePoints_length c
  have points : activePoints c ≠ [] := List.ne_nil_of_length_pos (by omega)
  have within : ∀ p ∈ activePoints c, lo ≤ p.y ∧ p.y ≤ hi := fun p mem => by
    obtain ⟨k, active, rfl⟩ := mem_activePoints mem
    exact ordinates k active
  obtain ⟨low, high⟩ := evalPoints_bounds (activePoints c) x points within
  refine ⟨(evalPoints (activePoints c) x).toNat, if_pos (decide_eq_true isSet), by omega, by omega,
    fun first => ?_, fun k final beyond => ?_⟩
  · have head : (activePoints c).head points = c.points[(0 : Fin 8)] := by
      rw [List.head_eq_getElem]
      exact activePoints_getElem c 0 _
    rw [evalPoints_first _ x points (head ▸ first), head]
    rfl
  · have last : (activePoints c).getLast points = c.points[k] := by
      rw [← activePoints_getElem c k (by omega), List.getLast_eq_getElem]
      congr 1
      omega
    have passed : ∀ p ∈ activePoints c, p.x ≤ x := fun p mem => by
      obtain ⟨j, active, rfl⟩ := mem_activePoints mem
      obtain same | before := Fin.eq_or_lt_of_le (show j ≤ k by omega)
      · exact same ▸ beyond
      · exact (rises j k before (by omega)).le.trans beyond
    rw [evalPoints_last _ x points ((activePoints_pairwise_iff c).2 rises) passed, last]
    rfl

/-- Settles O41: a count is checked against the order of the points that it makes active. -/
theorem curveCountWriteChecksOrder : Obligations.CurveCountWriteChecksOrder := by
  intro r s i h index n rising reply
  have order : curveOrdered { s.curves[i] with count := n } = true ↔ rising := curveOrdered_iff _
  have written := writeRequest_checked (table := 6) (r := { r with field := 0 }) h (by decide)
    (x := service (.unsigned 0 8) .always) rfl (le_refl _) rfl (by decide)
    (by simp [indexTaken, tableSize, index]) (take_count r.value)
  have outcome : writeCurve i 0 n s = if curveOrdered { s.curves[i] with count := n } = true then
      some (s.setCurve i { s.curves[i] with count := n }) else none := writeCurve_ordered i n s (Nat.zero_le 8)
  rw [show applyWrite _ _ _ _ _ = writeCurve (Fin.ofNat 5 r.index.toNat) 0 n s from rfl, fin_ofNat_of_eq i _ index,
    outcome] at written
  constructor
  · intro rises
    rw [if_pos (order.2 rises)] at written
    have status : (if decide (8 < r.value.toNat) = true then Status.adjusted else .ok) =
        if r.value.toNat ≤ 8 then .ok else .adjusted := by
      by_cases fits : r.value.toNat ≤ 8
      · rw [if_pos fits, if_neg (by simpa using fits)]
      · rw [if_neg fits, if_pos (by simpa using fits)]
    have figure : wordOf (min r.value.toNat 8 : Nat) = BitVec.ofNat 32 n := BitVec.ofInt_natCast 32 n
    simp only [status, figure] at written
    exact congrArg Host.Outcome.next written
  · intro falls
    rw [if_neg (mt order.1 falls)] at written
    exact congrArg Host.Outcome.next written

end


section
/-! PROOF. The decimation tick: its judgement of the window, and its count toward an automatic start. -/

open Sys2Proof Sys2Proof.Machine

namespace Sys2Proof.Machine

/-! ### The judgement of a tick -/

section judgement

variable (s : State)

/-- A LIVE vane joins with its misalignment, the nearer end outside −180.0°..179.9°, and any other as INVALID (R108,
R113). -/
theorem vaneEntry_eq : vaneEntry s = if s.channels[s.yawCfg.vane].state = .live then
    some (max (-1800) (min s.channels[s.yawCfg.vane].value 1799)) else none := by
  simp only [vaneEntry, chanValue, usable, decide_eq_true_iff]
  split <;> rfl

/-- The window with the vane's entry joined (R113). -/
def nextWindow : List (Option Int) :=
  joinWindow (vaneEntry s) s.yaw.window

/-- A window with enough valid entries is VALID, with its mean and the factor of MISALIGN there (R114, R115). -/
theorem judgeWindow_valid (enough : s.yawCfg.minValid ≤ (validEntries (nextWindow s)).length) :
    judgeWindow s = { s with yaw := { s.yaw with
      window := nextWindow s, judgement := .valid, mean := some (windowMean (nextWindow s))
      factor := if s.yaw.unwindMark then s.yaw.factor else
        (evalCurve s.curves[CurveNo.misalign] (windowMean (nextWindow s)).natAbs).getD s.yawCfg.yawBlind } } := by
  have judged : judge s.yawCfg.minValid (joinWindow (vaneEntry s) s.yaw.window) = .valid := if_pos enough
  simp only [judgeWindow, judged]
  rfl

/-- A window that is too short is FILLING and leaves the factor (R114, R115). -/
theorem judgeWindow_filling (few : (validEntries (nextWindow s)).length < s.yawCfg.minValid)
    (short : (nextWindow s).length < s.yawCfg.minValid) :
    judgeWindow s = { s with yaw := { s.yaw with window := nextWindow s, judgement := .filling, mean := none } } := by
  have judged : judge s.yawCfg.minValid (joinWindow (vaneEntry s) s.yaw.window) = .filling :=
    (if_neg (Nat.not_le.2 few)).trans (if_pos short)
  simp only [judgeWindow, judged, factorAt, ite_self]
  rfl

/-- A window long enough with too few valid entries is BLIND and raises VANE_BLIND (R114, R115). -/
theorem judgeWindow_blind_eq (few : (validEntries (nextWindow s)).length < s.yawCfg.minValid)
    (long : s.yawCfg.minValid ≤ (nextWindow s).length) :
    judgeWindow s = raise CauseNo.vaneBlind .none .none (some (unsignedFigure (validEntries (nextWindow s)).length))
      { s with yaw := { s.yaw with
        window := nextWindow s, judgement := .blind, mean := none
        factor := if s.yaw.unwindMark then s.yaw.factor else s.yawCfg.yawBlind } } := by
  have judged : judge s.yawCfg.minValid (joinWindow (vaneEntry s) s.yaw.window) = .blind :=
    (if_neg (Nat.not_le.2 few)).trans (if_neg (Nat.not_lt.2 long))
  simp only [judgeWindow, judged]
  rfl

/-- A judgement leaves the settings, the yaw's state and its start count. -/
theorem judgeWindow_counting : (judgeWindow s).yawCfg = s.yawCfg ∧ (judgeWindow s).yaw.mode = s.yaw.mode ∧
    (judgeWindow s).yaw.startCount = s.yaw.startCount ∧
    (judgeWindow s).yaw.startPositive = s.yaw.startPositive := by
  rw [judgeWindow_frame, judgeWindow_yaw]
  exact ⟨rfl, rfl, rfl, rfl⟩

end judgement

/-! ### The count toward a start -/

/-- A tick of this state meets the start condition: yaw_auto ON, the yaw permitted, enough valid entries, and their
mean far enough off (R118). -/
def TickStarts (s : State) : Prop :=
  s.sup.mode.yawAuto = true ∧ yawPermitted s = true ∧ s.yawCfg.minValid ≤ (validEntries (nextWindow s)).length ∧
    s.yawCfg.startMisalign ≤ (windowMean (nextWindow s)).natAbs

/-- With a mean, which a VALID judgement alone leaves, the sign is the mean's (R118). -/
theorem startSign_of_mean {s : State} {m : Int} (judged : s.yaw.judgement = .valid) (mean : s.yaw.mean = some m) :
    startSign s = if s.sup.mode.yawAuto = true ∧ yawPermitted s = true ∧ s.yawCfg.startMisalign ≤ m.natAbs then
      some (decide (0 < m)) else none := by
  simp [startSign, mean, judged, and_assoc]

theorem startSign_of_no_mean {s : State} (mean : s.yaw.mean = none) : startSign s = none := by
  simp [startSign, mean]

/-- After a judgement the start condition is asked of the window judged, and of what the judgement leaves alone. -/
theorem startSign_judgeWindow (s : State) :
    (TickStarts s → startSign (judgeWindow s) = some (decide (0 < windowMean (nextWindow s)))) ∧
      (¬ TickStarts s → startSign (judgeWindow s) = none) := by
  by_cases enough : s.yawCfg.minValid ≤ (validEntries (nextWindow s)).length
  · rw [judgeWindow_valid s enough, startSign_of_mean rfl rfl]
    exact ⟨fun ⟨auto, permitted, _, off⟩ => if_pos ⟨auto, permitted, off⟩,
      fun fails => if_neg fun ⟨auto, permitted, off⟩ => fails ⟨auto, permitted, enough, off⟩⟩
  · have few := Nat.lt_of_not_le enough
    have mean : (judgeWindow s).yaw.mean = none := by
      obtain short | long := Nat.lt_or_ge (nextWindow s).length s.yawCfg.minValid
      · rw [judgeWindow_filling s few short]
      · rw [judgeWindow_blind_eq s few long, raise_yaw]
    exact ⟨fun ⟨_, _, valid, _⟩ => absurd valid enough, fun _ => startSign_of_no_mean mean⟩

/-- The start count of a tick in PARKED that meets the start condition with the mean's sign (R118). -/
theorem startCounting_of_some {s : State} {p : Bool} (parked : s.yaw.mode = .parked) (sign : startSign s = some p) :
    startCounting s = { s with yaw := { s.yaw with
      startCount := if s.yaw.startPositive = p then s.yaw.startCount + 1 else 1, startPositive := p } } := by
  unfold startCounting
  rw [if_pos parked, sign]

theorem startCounting_of_none {s : State} (parked : s.yaw.mode = .parked) (sign : startSign s = none) :
    startCounting s = { s with yaw := { s.yaw with startCount := 0 } } := by
  unfold startCounting
  rw [if_pos parked, sign]

/-- In PARKED a due tick ends in the state counted, or takes the automatic start there (R118). -/
theorem decimationTick_counts {s v : State} (due : s.yawCfg.yawDecim ≤ s.yaw.tickCount)
    (counted : startCounting (judgeWindow { s with yaw := { s.yaw with tickCount := 0 } }) = v)
    (settings : v.yawCfg = s.yawCfg) :
    (v.yaw.startCount < s.yawCfg.startTicks → exec .decimationTick s = .next v) ∧
      (s.yawCfg.startTicks ≤ v.yaw.startCount → exec .decimationTick s = exec .automaticStart v) := by
  have tick : decimationTick s = automaticStart v := (if_pos due).trans (congrArg automaticStart counted)
  refine ⟨fun early => ?_, fun _ => congrArg Host.Outcome.next tick⟩
  have waits := automaticStart_of_not_due v fun ⟨_, reached, _⟩ => by
    rw [settings] at reached
    omega
  exact congrArg Host.Outcome.next (tick.trans waits)

end Sys2Proof.Machine

/-- Settles O27: the state after the judgement is the one from which the count toward a start goes on, and a judgement
leaves alone what that count asks beside the window. -/
theorem decimationTickJudgesWindow : Obligations.DecimationTickJudgesWindow := by
  refine ⟨fun s early => congrArg Host.Outcome.next (if_neg (Nat.not_le.2 early)), ?_⟩
  intro s due entry w valid mean
  let u : State := { s with yaw := { s.yaw with tickCount := 0 } }
  have joined : nextWindow u = w := by
    have joins : vaneEntry u = entry := vaneEntry_eq u
    exact congrArg (joinWindow · s.yaw.window) joins
  have entries : validEntries (nextWindow u) = valid := congrArg validEntries joined
  have average : windowMean (nextWindow u) = mean := congrArg windowMean joined
  refine ⟨judgeWindow u, fun enough => ?_, fun few short => ?_, fun few long => ?_, fun moving => ?_, fun parked => ?_⟩
  · rw [judgeWindow_valid u (entries ▸ enough), average, joined]
  · rw [judgeWindow_filling u (entries ▸ few) (joined ▸ short), joined]
  · rw [judgeWindow_blind_eq u (entries ▸ few) (joined ▸ long), entries, joined]
  · exact congrArg Host.Outcome.next (decimationTick_of_not_parked s moving due)
  · intro permits starts positive counts
    have condition : TickStarts u ↔ starts := by
      rw [TickStarts, yawPermitted_iff, entries, average]
      simp only [and_assoc]
      rfl
    obtain ⟨settings, mode, count, sign⟩ := judgeWindow_counting u
    have still : (judgeWindow u).yaw.mode = .parked := mode.trans parked
    obtain ⟨meets, misses⟩ := startSign_judgeWindow u
    constructor
    · intro fails
      exact decimationTick_counts due (startCounting_of_none still (misses (mt condition.1 fails))) settings
    · intro holds n
      have counted := startCounting_of_some still (meets (condition.2 holds))
      rw [sign, count, average] at counted
      exact decimationTick_counts due counted settings

end


section
/-! PROOF. The limit unit: the evaluation of a limit and the action its trip begins, and the writes of the limit
table. -/

open Sys2Proof Sys2Proof.Machine

namespace Sys2Proof.Machine

/-! ### The target of a value -/

theorem reachesLevel_eq (d : Direction) (v x : Int) :
    reachesLevel d v x = if d = .high then decide (x ≤ v) else decide (v ≤ x) := by
  cases d <;> rfl

theorem holdLine_eq (d : Direction) (x : Int) (hysteresis : Nat) :
    holdLine d x hysteresis = if d = .high then x - hysteresis else x + hysteresis := by
  cases d <;> rfl

/-- TRIP is left past its hold line alone, and so is WARN, also from TRIP; a level not in force is reached at its own
figure (R54). -/
theorem targetOf_eq (l : Limit) (v : Int) (bound : l.level ≠ .unbound) : targetOf l v =
    if reachesLevel l.direction v
      (if l.level = .trip then holdLine l.direction l.trip l.hysteresis else l.trip) then .trip
    else if reachesLevel l.direction v
      (if l.level = .clear then l.warn else holdLine l.direction l.warn l.hysteresis) then .warn
    else .clear := by
  unfold targetOf
  cases level : l.level with
  | unbound => exact absurd level bound
  | clear | warn | trip => rfl

/-! ### The record after an evaluation -/

section stepped

variable {l : Limit} {t : Target}

/-- A target that is the level ends the count (R55). -/
theorem stepped_same (same : t.toLevel = l.level) : stepped l t = ({ l with counter := 0, target := t }, false) :=
  if_pos same

/-- Below persistence another target counts, from 1 when it is new (R55). -/
theorem stepped_counts (other : t.toLevel ≠ l.level)
    (early : (if t = l.target then l.counter + 1 else 1) < l.persistence) :
    stepped l t = ({ l with target := t, counter := if t = l.target then l.counter + 1 else 1 }, false) :=
  (if_neg other).trans (if_neg (Nat.not_le.2 early))

/-- At persistence the level moves to the target (R55). -/
theorem stepped_moves (other : t.toLevel ≠ l.level)
    (reached : l.persistence ≤ if t = l.target then l.counter + 1 else 1) :
    stepped l t = ({ l with level := t.toLevel, target := t, counter := 0 }, true) :=
  (if_neg other).trans (if_pos reached)

end stepped

/-! ### The level entered -/

section entered

variable (i : Fin 96) {l : Limit} (s : State)

/-- CLEAR raises nothing (R57). -/
theorem levelEntered_clear (level : l.level = .clear) : levelEntered i (s.setLimit i l) = s.setLimit i l := by
  unfold levelEntered
  rw [State.setLimit_at]
  simp only [level]

/-- WARN raises the warn cause, when there is one (R57). -/
theorem levelEntered_warn (level : l.level = .warn) : levelEntered i (s.setLimit i l) =
    l.warnCause.elim (s.setLimit i l)
      (raise · .none (.limit i) (l.lastValue.map signedFigure) (s.setLimit i l)) := by
  unfold levelEntered
  rw [State.setLimit_at]
  simp only [level]
  cases l.warnCause <;> rfl

/-- TRIP raises the trip cause and begins the action (R57, R63 to R65). -/
theorem levelEntered_trip (level : l.level = .trip) : levelEntered i (s.setLimit i l) =
    beginAction l (raise l.tripCause (tripRecAction l.action) (.limit i) (l.lastValue.map signedFigure)
      (s.setLimit i l)) := by
  unfold levelEntered
  rw [State.setLimit_at]
  simp only [level]

/-- UNBOUND raises LIMIT_UNBOUND with the channel's number, which fits its 16 bits (R61). -/
theorem levelEntered_unbound (level : l.level = .unbound) : levelEntered i (s.setLimit i l) =
    raise CauseNo.limitUnbound .none (.limit i) (some (BitVec.ofNat 16 l.channel.val)) (s.setLimit i l) := by
  have fits : unsignedFigure l.channel.val = BitVec.ofNat 16 l.channel.val :=
    congrArg (BitVec.ofNat 16) (Nat.min_eq_left (by omega))
  unfold levelEntered
  rw [State.setLimit_at]
  simp only [level, fits]

end entered

/-! ### The action of a trip -/

/-- A section after an isolation arrival (R79). -/
def isolatedSect (x : Sect) : Sect :=
  if x.state = .online ∨ x.state = .held then { x with state := .isolated } else x

theorem isolatedSect_isolatedSect (x : Sect) : isolatedSect (isolatedSect x) = isolatedSect x := by
  unfold isolatedSect
  split
  · simp
  · rfl

theorem isolateSect_eq (k : Fin 6) (s : State) :
    isolateSect k s = { s with sects := s.sects.set k (isolatedSect s.sects[k]) } := by
  by_cases serves : s.sects[k].state = .online ∨ s.sects[k].state = .held
  · rw [isolateSect, isolatedSect, if_pos serves, if_pos serves]
    rfl
  · rw [isolateSect, isolatedSect, if_neg serves, if_neg serves]
    simp

/-- Isolation arrivals for the sections of a list, one after another: each acts on its own section, and a section
isolated twice is isolated. -/
theorem foldl_isolateSect (l : List (Fin 6)) (s : State) : l.foldl (fun t k => isolateSect k t) s =
    { s with sects := Vector.ofFn fun j => if j ∈ l then isolatedSect s.sects[j] else s.sects[j] } := by
  induction l generalizing s with
  | nil => simp
  | cons k l ih =>
    rw [List.foldl_cons, ih, isolateSect_eq]
    have each (j : Fin 6) :
        (if j ∈ l then isolatedSect (s.sects.set k (isolatedSect s.sects[k]))[j]
          else (s.sects.set k (isolatedSect s.sects[k]))[j]) =
        if j ∈ k :: l then isolatedSect s.sects[j] else s.sects[j] := by
      by_cases same : j = k
      · subst same
        simp [isolatedSect_isolatedSect]
      · have apart : (k : Nat) ≠ j := fun e => same (Fin.ext e.symm)
        simp [same, apart]
    simp only [each]

section action

variable {l : Limit} (s : State)

/-- The actions that begin nothing of their own: the level itself is their demand (R62, R63). -/
theorem beginAction_standing (action : l.action = .report ∨ l.action = .derateSection ∨ l.action = .ceiling) :
    beginAction l s = s := by
  obtain action | action | action := action <;> (unfold beginAction; rw [action])

theorem beginAction_isolateSection (action : l.action = .isolateSection) : beginAction l s =
    { s with sects := s.sects.set l.subject (isolatedSect s.sects[l.subject]) } := by
  unfold beginAction
  rw [action]
  exact isolateSect_eq l.subject s

theorem beginAction_isolateAll (action : l.action = .isolateAll) :
    beginAction l s = { s with sects := s.sects.map isolatedSect } := by
  have all : (Vector.ofFn fun j => if j ∈ List.finRange 6 then isolatedSect s.sects[j] else s.sects[j]) =
      s.sects.map isolatedSect := by
    ext1 k inside
    simp
  unfold beginAction
  rw [action, ← all]
  exact foldl_isolateSect (List.finRange 6) s

theorem beginAction_yawHold (action : l.action = .yawHold) : beginAction l s = yawToHeld s := by
  unfold beginAction
  rw [action]

theorem beginAction_nacelleStop (action : l.action = .nacelleStop) :
    beginAction l s = stopDemand (.cause l.tripCause) s := by
  unfold beginAction
  rw [action]

/-- A limit cause is in no group that bars the yaw, so its stop holds the sections and leaves the yaw (R81, R116,
R167). -/
theorem stopDemand_limitCause {c : Fin 128} (limit : 96 ≤ c.val) (operating : s.sup.nacelle = .operating) :
    stopDemand (.cause c) s = holdOnline (putNacelle .stopped (.cause c) s) := by
  have permits : barsYaw (.cause c) = false := by
    refine (barsYaw_eq_false_iff _).2 ⟨fun e => ?_, fun d e => ?_⟩
    · cases e
      simp at limit
    · cases e
      omega
  rw [stopDemand_of_operating _ s operating, enterStopped]
  simp [permits]

end action

/-! ### Evaluation -/

section evaluation

variable {i : Fin 96} {v : Int} {s : State} (enabled : s.limits[i].enable = true)
  (bound : s.limits[i].level ≠ .unbound)

include enabled bound

/-- A latched TRIP stays (R56). -/
theorem evaluateLimit_latched (latch : s.limits[i].latch = true) (trip : s.limits[i].level = .trip) :
    evaluateLimit i v s =
      s.setLimit i { s.limits[i] with lastValue := some v, target := .trip, counter := 0 } := by
  unfold evaluateLimit
  dsimp only
  rw [if_neg (by simp [-Fin.getElem_fin, enabled, bound]), if_pos (by simp [-Fin.getElem_fin, latch, trip])]

/-- Any other limit is stepped to its target, and a level that moves is entered (R55, R57). -/
theorem evaluateLimit_stepped (free : s.limits[i].latch = false ∨ s.limits[i].level ≠ .trip)
    {x : Limit} {moves : Bool}
    (step : stepped { s.limits[i] with lastValue := some v } (targetOf s.limits[i] v) = (x, moves)) :
    evaluateLimit i v s = if moves then levelEntered i (s.setLimit i x) else s.setLimit i x := by
  have unlatched : ¬ (s.limits[i].latch && decide (s.limits[i].level = .trip)) = true := by
    obtain off | other := free
    · simp [-Fin.getElem_fin, off]
    · simp [-Fin.getElem_fin, other]
  unfold evaluateLimit
  dsimp only
  rw [if_neg (by simp [-Fin.getElem_fin, enabled, bound]), if_neg unlatched, step]

end evaluation

/-! ### Writes of the limit table -/

theorem limitOrdered_iff (l : Limit) : limitOrdered l = true ↔
    (l.direction = .high → l.warn ≤ l.trip) ∧ (l.direction = .low → l.trip ≤ l.warn) := by
  unfold limitOrdered
  cases l.direction <;> simp

/-- A write of the enable is taken when the levels of a limit that it leaves enabled stand in order (R66). -/
theorem writeLimit_enable (i : Fin 96) (s : State) (w : Word) (flag : w.toNat < 2) :
    let l : Limit := { s.limits[i] with enable := decide (w = 1) }
    writeLimit i 0 w.toNat s =
      if w = 1 ∧ limitOrdered s.limits[i] = false then none
      else some (limitWritten i s.limits[i] l true false s) := by
  intro l
  have written : limitWith s.limits[i] 0 w.toNat = l := by
    simp only [limitWith, flagOf_eq w flag, l]
  have order : limitOrdered l = limitOrdered s.limits[i] := rfl
  have enabled : l.enable = decide (w = 1) := rfl
  unfold writeLimit
  rw [written]
  dsimp only
  rw [order, enabled]
  simp [-Fin.getElem_fin, limitStructural, limitTuning]

section written

variable (i : Fin 96) {l : Limit} (s : State)

/-- A limit armed on a CONFIGURED channel is CLEAR (R52). -/
theorem armLimit_configured (configured : s.channels[l.channel].configured = true) : armLimit i l s =
    s.setLimit i { l with level := .clear, target := .clear, counter := 0, lastValue := none } := by
  have level : armed s l = { l with level := .clear, target := .clear, counter := 0, lastValue := none } := by
    rw [armed, if_pos configured]
  rw [armLimit, level]
  exact levelEntered_clear i s rfl

/-- A limit armed on an EMPTY channel is UNBOUND, and LIMIT_UNBOUND rises (R52, R61). -/
theorem armLimit_empty (empty : s.channels[l.channel].configured = false) : armLimit i l s =
    raise CauseNo.limitUnbound .none (.limit i) (some (BitVec.ofNat 16 l.channel.val))
      (s.setLimit i { l with level := .unbound, target := .clear, counter := 0, lastValue := none }) := by
  have level : armed s l = { l with level := .unbound, target := .clear, counter := 0, lastValue := none } := by
    rw [armed, if_neg (by rw [empty]; decide)]
  rw [armLimit, level]
  exact levelEntered_unbound i s rfl

/-- A write that leaves its limit enabled, of a structural field, arms it (R67). -/
theorem limitWritten_structural {old : Limit} {levels : Bool} (enabled : l.enable = true) :
    limitWritten i old l true levels s = armLimit i l s := by
  simp [limitWritten, enabled]

/-- A write that disables its limit clears its runtime (R52, R67). -/
theorem limitWritten_disables {old : Limit} {structural levels : Bool} (was : old.enable = true)
    (disabled : l.enable = false) : limitWritten i old l structural levels s = s.setLimit i (disarmed l) := by
  simp [limitWritten, was, disabled]

/-- A trip level that keeps the order of an enabled limit keeps its level, and the count starts anew (R66, R67). -/
theorem writeLimit_trip (z : Int) (enabled : s.limits[i].enable = true)
    (order : limitOrdered { s.limits[i] with trip := z } = true) : writeLimit i 4 z s =
    some (s.setLimit i
      { s.limits[i] with trip := z, counter := 0, target := s.limits[i].level.toTarget }) := by
  have written : limitWith s.limits[i] 4 z = { s.limits[i] with trip := z } := rfl
  unfold writeLimit
  rw [written]
  dsimp only
  rw [order]
  simp [-Fin.getElem_fin, limitWritten, limitStructural, limitTuning, enabled]

end written

/-- A write of an OPERATOR field of a limit, whose value is in range, is taken or refused by the order of its levels
alone (R178). -/
theorem limitTuningWrite_checked {r : ReqArgs} {s : State} {i : Fin 96} (h : ReachedAt .operator r s)
    (index : r.index.toNat = i.val) {form : Form} {z : Int}
    (field : limitFields[r.field.toNat]? = some (operatorField form)) (writable : form ≠ .readOnly)
    (value : form.take r.value = some (z, false)) :
    exec (.limitWrite r) s = .next (match writeLimit i r.field.toNat z s with
      | none => refuse 5 r .refusedConflict s
      | some u => prepare (replyTo 5 r .ok (wordOf z)) u) := by
  have written := writeRequest_checked (table := 5) h (by decide) field (le_refl _) rfl writable
    (by simp [indexTaken, tableSize, index, i.isLt]) value
  rw [show applyWrite _ _ _ _ _ = writeLimit (Fin.ofNat 96 r.index.toNat) _ _ _ from rfl,
    fin_ofNat_of_eq i _ index] at written
  exact congrArg Host.Outcome.next written

end Sys2Proof.Machine

/-- Settles O56: the record after the evaluation is that of `stepped` at the target, and a level that moves is
entered. -/
theorem limitEvaluationMovesLevel : Obligations.LimitEvaluationMovesLevel := by
  intro i v s enabled bound l after put reached held target n
  have aim : targetOf l v = target := by
    have reaches : reachesLevel l.direction v = reached := funext (reachesLevel_eq l.direction v)
    rw [targetOf_eq l v bound, holdLine_eq, holdLine_eq, reaches]
  refine ⟨fun latch trip => evaluateLimit_latched enabled bound latch trip, fun free => ?_⟩
  have evaluated {x : Limit} {moves : Bool} (step : stepped { l with lastValue := some v } target = (x, moves)) :=
    evaluateLimit_stepped (v := v) enabled bound free ((congrArg (stepped _) aim).trans step)
  refine ⟨fun same => evaluated (stepped_same same), fun other early => evaluated (stepped_counts other early),
    fun other persists => ?_⟩
  intro moved tripped isolated
  let entered : Limit := { l with level := target.toLevel, target := target, counter := 0, lastValue := some v }
  have moves : evaluateLimit i v s = levelEntered i (s.setLimit i entered) := evaluated (stepped_moves other persists)
  have level {t : Target} (e : target = t) : entered.level = t.toLevel := congrArg Target.toLevel e
  refine ⟨?_, fun c warn cause => ?_, fun trip => ?_⟩
  · rintro (clear | ⟨warn, none_⟩)
    · exact moves.trans (levelEntered_clear i s (level clear))
    · refine (moves.trans (levelEntered_warn i s (level warn))).trans ?_
      rw [show entered.warnCause = none from none_]
      rfl
  · refine (moves.trans (levelEntered_warn i s (level warn))).trans ?_
    rw [show entered.warnCause = some c from cause]
    rfl
  have trips {a : LimitAction} (action : l.action = a) :
      evaluateLimit i v s = beginAction l (tripped (tripRecAction a)) :=
    action ▸ moves.trans (levelEntered_trip i s (level trip))
  have sects (a : RecAction) : (tripped a).sects = s.sects := raise_sects ..
  have yaw (a : RecAction) : (tripped a).yaw = s.yaw := raise_yaw ..
  have lines (a : RecAction) : (tripped a).lines = s.lines := raise_lines ..
  have sup (a : RecAction) : (tripped a).sup = s.sup := raise_sup ..
  refine ⟨fun action => ?report, fun action => ?derate, fun action => ?ceiling, fun action => ?isolateSection,
    fun action => ?isolateAll, fun action rests => ?held, fun action turns => ?yawHold,
    fun action other => ?stopKept, fun action operating limit => ?stops⟩
  case report => exact (trips action).trans (beginAction_standing _ (.inl action))
  case derate => exact (trips action).trans (beginAction_standing _ (.inr (.inl action)))
  case ceiling => exact (trips action).trans (beginAction_standing _ (.inr (.inr action)))
  case isolateSection =>
    refine (trips action).trans ((beginAction_isolateSection _ action).trans ?_)
    rw [sects]
    rfl
  case isolateAll =>
    refine (trips action).trans ((beginAction_isolateAll _ action).trans ?_)
    rw [sects]
    rfl
  case held =>
    refine (trips action).trans ((beginAction_yawHold _ action).trans ?_)
    rw [yawToHeld, if_pos (by rw [yaw]; exact rests)]
    rfl
  case yawHold =>
    refine (trips action).trans ((beginAction_yawHold _ action).trans ?_)
    rw [yawToHeld, if_neg (by rw [yaw]; exact turns), putYaw, yaw, lines]
    rfl
  case stopKept =>
    refine (trips action).trans ((beginAction_nacelleStop _ action).trans ?_)
    exact stopDemand_of_not_operating _ _ (by rw [sup]; exact other)
  case stops =>
    refine (trips action).trans ((beginAction_nacelleStop _ action).trans ?_)
    rw [stopDemand_limitCause _ limit (by rw [sup]; exact operating), holdOnline, putNacelle, sects, sup, lines]
    rfl

/-- Settles O42: the three writes pass the checks of R178, and `limitWritten` says what each does to the runtime. -/
theorem limitWriteArmsOrRetunes : Obligations.LimitWriteArmsOrRetunes := by
  intro r s i index l bare reply ordered
  have order : limitOrdered l = true ↔ ordered := limitOrdered_iff l
  -- What a write of the enable comes to: `u` is the state that a taken one leaves.
  have enableWrite (h : ReachedAt .service r s) (idle : s.sup.nacelle ≠ .operating) (zero : r.field = 0)
      (flag : r.value.toNat < 2) {u : State}
      (left : limitWritten i l { l with enable := decide (r.value = 1) } true false s = u) :
      ((r.value = 1 → limitOrdered l = true) → exec (.limitWrite r) s = .next (reply u .ok)) ∧
      (r.value = 1 → limitOrdered l = false → exec (.limitWrite r) s = .next (reply s .refusedConflict)) := by
    have outcome : applyWrite (5 : Octet).toNat r.index.toNat 0 r.value.toNat s = _ :=
      (congrArg (writeLimit · 0 r.value.toNat s) (fin_ofNat_of_eq i _ index)).trans
        (writeLimit_enable i s r.value flag)
    rw [left] at outcome
    obtain ⟨taken, refused⟩ := enableWrite_reached (table := 5) h idle zero flag (by decide) rfl
      (by simp [indexTaken, tableSize, index]) outcome
    exact ⟨fun good => congrArg Host.Outcome.next (taken good),
      fun on bad => congrArg Host.Outcome.next (refused on bad)⟩
  refine ⟨fun h idle zero on off => ?_, fun h idle zero written was => ?_, ?_⟩
  · have flag : r.value.toNat < 2 := by rw [on]; decide
    have arms : limitWritten i l { l with enable := decide (r.value = 1) } true false s =
        armLimit i { l with enable := true } s := by
      rw [decide_eq_true on]
      exact limitWritten_structural i s rfl
    refine ⟨fun conflict => ?_, fun good configured => ?_, fun good empty => ?_⟩
    · exact (enableWrite h idle zero flag arms).2 on (Bool.eq_false_iff.2 (mt order.1 conflict))
    · exact (enableWrite h idle zero flag (arms.trans (armLimit_configured i s configured))).1 fun _ => order.2 good
    · exact (enableWrite h idle zero flag (arms.trans (armLimit_empty i s empty))).1 fun _ => order.2 good
  · have off : r.value ≠ 1 := by rw [written]; decide
    have disables : limitWritten i l { l with enable := decide (r.value = 1) } true false s =
        s.setLimit i (disarmed { l with enable := false }) := by
      rw [decide_eq_false off]
      exact limitWritten_disables i s was rfl
    exact (enableWrite h idle zero (by rw [written]; decide) disables).1 fun on => absurd on off
  · intro h field enabled high above top bottom
    have fourth : r.field.toNat = 4 := by rw [field]; rfl
    have stands : limitOrdered { l with trip := r.value.toInt } = true :=
      (limitOrdered_iff _).2 ⟨fun _ => above, fun low => by cases high.symm.trans low⟩
    have written := limitTuningWrite_checked h index (by rw [fourth]; rfl) (by decide)
      (take_half r.value bottom top)
    rw [fourth, writeLimit_trip i s _ enabled stands, wordOf_toInt] at written
    refine written.trans (congrArg (fun t : Target => Host.Outcome.next (reply (s.setLimit i
      { l with trip := r.value.toInt, counter := 0, target := t }) .ok)) ?_)
    cases l.level <;> rfl

end


section
/-! PROOF. The section manager and the dispatch unit at a close: states, health and capability, the ceiling, and the
shares of it. -/

open Sys2Proof Sys2Proof.Machine

namespace Sys2Proof.Machine

/-! ### Standing demands -/

theorem mem_tripped (s : State) (a : LimitAction) (j : Fin 96) : j ∈ tripped s a ↔
    s.limits[j].enable = true ∧ s.limits[j].level = .trip ∧ s.limits[j].action = a := by
  simp [tripped, allIdx, inTrip, and_assoc]

theorem leastOf_isLeast (l : List Nat) (top : Nat) : IsLeast (insert top {n | n ∈ l}) (leastOf top l) := by
  induction l generalizing top with
  | nil => simp [leastOf]
  | cons v l ih =>
    obtain ⟨mem, lower⟩ := ih (min top v)
    constructor
    · show leastOf (min top v) l = top ∨ leastOf (min top v) l ∈ v :: l
      obtain least | rest := mem
      · rw [least, List.mem_cons]
        omega
      · exact .inr (List.mem_cons_of_mem _ rest)
    · have first : leastOf (min top v) l ≤ min top v := lower (.inl rfl)
      rintro n (rfl | n_mem)
      · exact first.trans (min_le_left _ _)
      · obtain rfl | rest := List.mem_cons.1 n_mem
        · exact first.trans (min_le_right _ _)
        · exact lower (.inr rest)

/-- The derate demand of a section is the least of 256 and the figures of the limits that derate it (R62). -/
theorem derateDemand_isLeast (s : State) (i : Fin 6) : IsLeast (insert 256 {n | ∃ j : Fin 96,
    ((s.limits[j].enable = true ∧ s.limits[j].level = .trip ∧ s.limits[j].action = .derateSection) ∧
      s.limits[j].subject = i) ∧ s.limits[j].actionValue = n}) (derateDemand s i) := by
  have least := leastOf_isLeast (((tripped s .derateSection).filter fun j => s.limits[j].subject = i).map
    fun j => s.limits[j].actionValue) 256
  simp only [List.mem_map, List.mem_filter, decide_eq_true_eq, mem_tripped] at least
  exact least

theorem ceilingCap_none (s : State) (none_ : ∀ j, j ∉ tripped s .ceiling) : ceilingCap s = none := by
  unfold ceilingCap
  rw [List.eq_nil_iff_forall_not_mem.2 none_]
  rfl

/-- The ceiling cap is the least figure of the CEILING limits in TRIP (R62). -/
theorem ceilingCap_isLeast (s : State) {j : Fin 96} (capping : j ∈ tripped s .ceiling) :
    ∃ n, ceilingCap s = some n ∧ IsLeast {v | ∃ k ∈ tripped s .ceiling, s.limits[k].actionValue = v} n := by
  unfold ceilingCap
  cases cappers : tripped s .ceiling with
  | nil => simp [cappers] at capping
  | cons k rest =>
    refine ⟨_, rfl, ?_⟩
    convert leastOf_isLeast (rest.map fun k => s.limits[k].actionValue) s.limits[k].actionValue using 1
    ext v
    simp [eq_comm]

/-- A section is to be isolated by a limit of its own or by one of all sections (R63). -/
theorem isolationDemand_iff (s : State) (i : Fin 6) : isolationDemand s i = true ↔ ∃ j : Fin 96,
    (s.limits[j].enable = true ∧ s.limits[j].level = .trip ∧ s.limits[j].action = .isolateSection) ∧
      s.limits[j].subject = i ∨
    s.limits[j].enable = true ∧ s.limits[j].level = .trip ∧ s.limits[j].action = .isolateAll := by
  simp only [isolationDemand, Bool.or_eq_true, List.any_eq_true, mem_tripped, decide_eq_true_eq, Bool.not_eq_true',
    List.isEmpty_eq_false_iff_exists_mem, exists_or]

/-! ### The section manager at a close -/

section

variable (s : State) (i : Fin 6)

theorem sectionsClose_at : (sectionsClose s).sects[i] = sectClose s i := by
  simp [sectionsClose]

theorem sectClose_absent (absent : s.sects[i].present = false) : sectClose s i = s.sects[i] := by
  simp only [sectClose, absent, Bool.false_eq_true, if_false]

theorem sectClose_present (present : s.sects[i].present = true) :
    let state := closeState (isolationDemand s i) s.sects[i]
    sectClose s i = { s.sects[i] with
      state := state, health := derateDemand s i
      capability := if state = .online then s.sects[i].rating * s.sects[i].thermal / 256 * derateDemand s i / 256
        else 0 } := by
  simp only [sectClose, present, capabilityOf, if_true]

end

theorem closeState_demand {x : Sect} (h : x.state ≠ .absent) : closeState true x = .isolated := by
  unfold closeState
  cases state : x.state <;> simp_all

theorem closeState_returns {x : Sect} (isolated : x.state = .isolated) (free : x.faultHold = false) :
    closeState false x = .held := by
  simp [closeState, isolated, free]

theorem closeState_stays {x : Sect} (h : x.state ≠ .isolated ∨ x.faultHold = true) :
    closeState false x = x.state := by
  unfold closeState
  cases state : x.state <;> simp_all

/-! ### The ceiling -/

theorem ceilingOf_le (opened : Bool) (t : Terms) : ceilingOf opened t ≤ t.tReq ∧ ceilingOf opened t ≤ t.tCool ∧
    ceilingOf opened t ≤ t.tYaw ∧ ceilingOf opened t ≤ t.tLim ∧ ceilingOf opened t ≤ t.cap := by
  unfold ceilingOf leastTerm
  split <;> omega

theorem leastTerm_mem (t : Terms) : leastTerm t = t.tReq ∨ leastTerm t = t.tCool ∨ leastTerm t = t.tYaw ∨
    leastTerm t = t.tLim ∨ leastTerm t = t.cap := by
  unfold leastTerm
  omega

/-- The five terms in the order of R93. -/
def Terms.listed (t : Terms) : List (CeilingTerm × Nat) :=
  [(.request, t.tReq), (.cooling, t.tCool), (.yaw, t.tYaw), (.limit, t.tLim), (.capability, t.cap)]

theorem termOf_found (t : Terms) :
    t.listed.find? (fun x => decide (leastTerm t = x.2)) = some (termOf true t, leastTerm t) := by
  have decides := leastTerm_mem t
  unfold termOf
  generalize leastTerm t = least at decides ⊢
  by_cases request : least = t.tReq
  · subst request
    simp [Terms.listed]
  by_cases cooling : least = t.tCool
  · subst cooling
    simp [Terms.listed, request]
  by_cases yaw : least = t.tYaw
  · subst yaw
    simp [Terms.listed, request, cooling]
  by_cases limit : least = t.tLim
  · subst limit
    simp [Terms.listed, request, cooling, yaw]
  · obtain rfl : least = t.cap := by simpa [request, cooling, yaw, limit] using decides
    simp [Terms.listed, request, cooling, yaw, limit]

/-- With the gate open the ceiling term is the first of the five that is the ceiling (R93). -/
theorem termOf_first (t : Terms) : ∃ n : Nat, t.listed[n]? = some (termOf true t, ceilingOf true t) ∧
    ∀ m x, m < n → t.listed[m]? = some x → x.2 ≠ ceilingOf true t := by
  obtain ⟨-, n, within, here, before⟩ := List.find?_eq_some_iff_getElem.1 (termOf_found t)
  refine ⟨n, by rw [List.getElem?_eq_getElem within, here]; rfl, fun m x early at_ same => ?_⟩
  obtain ⟨inside, rfl⟩ := List.getElem?_eq_some_iff.1 at_
  have other := before m early
  rw [Bool.not_eq_true', decide_eq_false_iff_not] at other
  exact other same.symm

/-! ### The shares -/

theorem allIdx_length {n : Nat} (P : Fin n → Prop) [DecidablePred P] :
    (allIdx fun j => decide (P j)).length = (Finset.univ.filter P).card := rfl

theorem sumSix_eq (f : Fin 6 → Nat) : sumSix f = ∑ i, f i := (Fin.sum_univ_def f).symm

section shares

variable {l a : Nat} {cap : Fin 6 → Nat}

/-- The share before its division, in whole parts and remainder (R95). -/
theorem floorShare_add_remainder (some_ : a ≠ 0) (i : Fin 6) :
    a * floorShare l a (cap i) + shareRemainder l a (cap i) = l * cap i := by
  simp only [floorShare, shareRemainder, if_neg some_]
  exact Nat.div_add_mod _ _

/-- What the floored shares fall short is what the remainders make up (R95). -/
theorem deficit_mul (total : sumSix cap = a) (some_ : a ≠ 0) :
    a * deficit l a cap = ∑ i, shareRemainder l a (cap i) ∧
      ∑ i, floorShare l a (cap i) + deficit l a cap = l := by
  have sums : a * ∑ i, floorShare l a (cap i) + ∑ i, shareRemainder l a (cap i) = a * l := by
    rw [Finset.mul_sum, ← Finset.sum_add_distrib, Finset.sum_congr rfl fun i _ => floorShare_add_remainder some_ i,
      ← Finset.mul_sum, ← sumSix_eq, total, Nat.mul_comm]
  have short : ∑ i, floorShare l a (cap i) ≤ l :=
    Nat.le_of_mul_le_mul_left (by omega) (Nat.pos_of_ne_zero some_)
  rw [deficit, sumSix_eq, Nat.mul_sub]
  omega

/-- A section among the first by remainder, as many as the floored shares fall short, has a remainder: those that
have one come first, and all of them together make up more than the deficit (R96). -/
theorem remainder_pos (total : sumSix cap = a) (some_ : a ≠ 0) {i : Fin 6}
    (early : remainderRank l a cap i < deficit l a cap) : 0 < shareRemainder l a (cap i) := by
  by_contra none_
  let owed : Finset (Fin 6) := Finset.univ.filter fun j => 0 < shareRemainder l a (cap j)
  have ahead : owed.card ≤ remainderRank l a cap i := by
    rw [remainderRank, allIdx_length]
    exact Finset.card_le_card fun j h => by simp [owed] at h ⊢; omega
  have bound : ∑ j, shareRemainder l a (cap j) ≤ owed.card * a := by
    rw [← Finset.sum_filter_of_ne (p := fun j => 0 < shareRemainder l a (cap j)) fun j _ h => Nat.pos_of_ne_zero h]
    refine Finset.sum_le_card_nsmul owed _ a fun j _ => ?_
    simp only [shareRemainder, if_neg some_]
    exact (Nat.mod_lt _ (Nat.pos_of_ne_zero some_)).le
  rw [← (deficit_mul total some_).1, Nat.mul_comm] at bound
  exact absurd (Nat.le_of_mul_le_mul_right bound (Nat.pos_of_ne_zero some_)) (by omega)

theorem deficit_lt_six (total : sumSix cap = a) (some_ : a ≠ 0) : deficit l a cap < 6 := by
  refine Nat.lt_of_mul_lt_mul_left (a := a) ?_
  rw [(deficit_mul total some_).1, Nat.mul_comm]
  have six : ∑ _ : Fin 6, a = 6 * a := by simp
  refine (Finset.sum_lt_sum_of_nonempty Finset.univ_nonempty fun j _ => ?_).trans_eq six
  simp only [shareRemainder, if_neg some_]
  exact Nat.mod_lt _ (Nat.pos_of_ne_zero some_)

/-- A section that comes before another by remainder and number has the lower rank (R96). -/
theorem remainderRank_lt {i j : Fin 6} (before : shareRemainder l a (cap i) < shareRemainder l a (cap j) ∨
    shareRemainder l a (cap j) = shareRemainder l a (cap i) ∧ j < i) :
    remainderRank l a cap j < remainderRank l a cap i := by
  simp only [remainderRank, allIdx_length]
  refine Finset.card_lt_card (Finset.ssubset_iff_of_subset (fun k h => ?_) |>.2 ⟨j, by simpa using before, by simp⟩)
  simp only [Finset.mem_filter, Finset.mem_univ, true_and] at h ⊢
  omega

theorem remainderRank_injective : Function.Injective (remainderRank l a cap) := by
  intro i j same
  by_contra other
  have ordered : (shareRemainder l a (cap i) < shareRemainder l a (cap j) ∨
      shareRemainder l a (cap j) = shareRemainder l a (cap i) ∧ j < i) ∨
      (shareRemainder l a (cap j) < shareRemainder l a (cap i) ∨
      shareRemainder l a (cap i) = shareRemainder l a (cap j) ∧ i < j) := by
    omega
  obtain later | earlier := ordered
  · exact absurd same (remainderRank_lt later).ne'
  · exact absurd same (remainderRank_lt earlier).ne

theorem remainderRank_lt_six (i : Fin 6) : remainderRank l a cap i < 6 := by
  rw [remainderRank, allIdx_length]
  exact Finset.card_lt_univ_of_notMem (x := i) (by simp)

/-- The ranks are 0 to 5, each once, so as many sections as the deficit says come first (R96). -/
theorem sum_handed {d : Nat} (within : d ≤ 6) : ∑ i, (if remainderRank l a cap i < d then 1 else 0) = d := by
  let rank (i : Fin 6) : Fin 6 := ⟨remainderRank l a cap i, remainderRank_lt_six i⟩
  have bijective : Function.Bijective rank :=
    Finite.injective_iff_bijective.1 fun i j same => remainderRank_injective (congrArg Fin.val same)
  calc ∑ i, (if remainderRank l a cap i < d then 1 else 0)
      = ∑ k : Fin 6, (if k.val < d then 1 else 0) := bijective.sum_comp fun k : Fin 6 => if k.val < d then 1 else 0
    _ = d := by
      interval_cases d <;> decide

/-- The shares sum to the ceiling exactly (R96). -/
theorem sum_shareOf (total : sumSix cap = a) (within : l ≤ a) : sumSix (shareOf l a cap) = l := by
  rw [sumSix_eq]
  simp only [shareOf, Finset.sum_add_distrib]
  by_cases none_ : a = 0
  · obtain rfl : l = 0 := by omega
    simp [none_, floorShare, deficit]
  · rw [sum_handed (deficit_lt_six total none_).le]
    exact (deficit_mul total none_).2

/-- No share is above its capability: what is handed out goes to sections whose division left a remainder (R96). -/
theorem shareOf_le (total : sumSix cap = a) (within : l ≤ a) (i : Fin 6) : shareOf l a cap i ≤ cap i := by
  by_cases none_ : a = 0
  · obtain rfl : l = 0 := by omega
    simp [shareOf, none_, floorShare, deficit]
  have parts := floorShare_add_remainder (l := l) (cap := cap) none_ i
  have most : l * cap i ≤ a * cap i := Nat.mul_le_mul_right _ within
  unfold shareOf
  split
  · rename_i early
    have owed := remainder_pos total none_ early
    exact Nat.lt_of_mul_lt_mul_left (a := a) (by omega)
  · rw [Nat.add_zero]
    exact Nat.le_of_mul_le_mul_left (by omega) (Nat.pos_of_ne_zero none_)

end shares

/-! ### The close of the dispatch unit -/

section close

variable (s : State)

theorem dispatchAtClose_shares :
    (dispatchAtClose s).power.shares = Vector.ofFn
      (shareOf (dispatchAtClose s).power.ceiling (termsNow s).cap fun i => s.sects[i].capability) := rfl

theorem dispatchAtClose_share (i : Fin 6) : (dispatchAtClose s).power.shares[i] =
    shareOf (dispatchAtClose s).power.ceiling (termsNow s).cap (fun i => s.sects[i].capability) i := by
  rw [dispatchAtClose_shares, Fin.getElem_fin, Vector.getElem_ofFn]

theorem dispatchAtClose_issued (i : Fin 6) : (dispatchAtClose s).power.issued[i] =
    issuedOf s (dispatchAtClose s).power.shares[i] i := by
  rw [dispatchAtClose_share]
  simp [dispatchAtClose]

theorem dispatchAtClose_issuedSum :
    (dispatchAtClose s).power.issuedSum = sumSix fun i => (dispatchAtClose s).power.issued[i] := by
  simp [dispatchAtClose]

theorem issuedOf_le (share : Nat) (i : Fin 6) : issuedOf s share i ≤ share := by
  unfold issuedOf
  split <;> omega

end close

end Sys2Proof.Machine

/-- Settles O58: the ranks hand the deficit out exactly, to sections whose division left a remainder. -/
theorem dispatchSharesTheCeiling : Obligations.DispatchSharesTheCeiling := by
  refine ⟨fun s => rfl, fun s i => ?_, fun s => ?_⟩
  · intro x y tripped isolating derates
    have demand : isolationDemand s i = true ↔ isolating := isolationDemand_iff s i
    have y_eq : y = sectClose s i := sectionsClose_at s i
    refine ⟨rfl, fun absent => y_eq.trans (sectClose_absent s i absent), fun present => ?_⟩
    have settled := y_eq.trans (sectClose_present s i present)
    clear_value y
    subst settled
    obtain ⟨attained, lower⟩ := derateDemand_isLeast s i
    refine ⟨rfl, fun holds other => ?_, fun free isolated released => ?_, fun free stays => ?_, lower (.inl rfl),
      fun j derating => lower (.inr ⟨j, derating, rfl⟩), ?_, rfl⟩
    · exact (congrArg (closeState · x) (demand.2 holds)).trans (closeState_demand other)
    · exact (congrArg (closeState · x) (Bool.eq_false_iff.2 (mt demand.1 free))).trans
        (closeState_returns isolated released)
    · exact (congrArg (closeState · x) (Bool.eq_false_iff.2 (mt demand.1 free))).trans (closeState_stays stays)
    · obtain top | ⟨j, derating, figure⟩ := attained
      · exact .inl top
      · exact .inr ⟨j, derating, figure.symm⟩
  · intro p cap sum total opened capping terms floored remainder deficit before
    have gate : gateOpen s = true ↔ opened := by simp [gateOpen, opened]
    obtain ⟨request, cooling, yaw, limit, capability⟩ := ceilingOf_le (gateOpen s) (termsNow s)
    have share (i : Fin 6) : p.shares[i] = shareOf p.ceiling total cap i := dispatchAtClose_share s i
    have shared (i : Fin 6) : p.shares[i] ≤ cap i := (share i).trans_le (shareOf_le rfl capability i)
    have issued (i : Fin 6) : p.issued[i] = issuedOf s p.shares[i] i := dispatchAtClose_issued s i
    have given (i : Fin 6) : p.issued[i] ≤ p.shares[i] := (issued i).trans_le (issuedOf_le s _ i)
    have whole : (sum fun i => p.shares[i]) = p.ceiling := by
      rw [show (fun i : Fin 6 => p.shares[i]) = shareOf p.ceiling total cap from funext share]
      exact sum_shareOf rfl capability
    have issuedSum : p.issuedSum = sum fun i => p.issued[i] := dispatchAtClose_issuedSum s
    refine ⟨rfl, fun none_ => ceilingCap_none s fun j mem => none_ j ((mem_tripped s _ j).1 mem), fun j caps => ?_,
      fun x mem => ?_, fun closed => ?_, fun open_ => ?_, share, whole, shared,
      fun i => ⟨issued i, (given i).trans (shared i), fun online outside => ?_⟩, issuedSum, ?_⟩
    · obtain ⟨n, found, ⟨k, mem, figure⟩, lower⟩ := ceilingCap_isLeast s ((mem_tripped s _ j).2 caps)
      exact ⟨n, found, lower ⟨j, (mem_tripped s _ j).2 caps, rfl⟩, k, (mem_tripped s _ k).1 mem, figure.symm⟩
    · simp only [terms, List.mem_cons, List.not_mem_nil, or_false] at mem
      obtain rfl | rfl | rfl | rfl | rfl := mem
      · exact request
      · exact cooling
      · exact yaw
      · exact limit
      · exact capability
    · have shut : gateOpen s = false := Bool.eq_false_iff.2 (mt gate.1 closed)
      have ceiling : p.ceiling = ceilingOf (gateOpen s) (termsNow s) := rfl
      have term : p.term = termOf (gateOpen s) (termsNow s) := rfl
      rw [ceiling, term, shut]
      exact ⟨rfl, rfl⟩
    · have ceiling : p.ceiling = ceilingOf (gateOpen s) (termsNow s) := rfl
      have term : p.term = termOf (gateOpen s) (termsNow s) := rfl
      rw [ceiling, term, gate.2 open_]
      exact termOf_first (termsNow s)
    · have running : (dispatchAtClose s).sects[i].state = .online := online
      have outTest : (dispatchAtClose s).sup.nacelle ≠ .test := outside
      simp only [sectCommand, running, if_neg outTest]
      rfl
    · rw [issuedSum, ← whole]
      exact List.sum_le_sum fun i _ => given i

end


section
/-! PROOF. The service key, and the writes of present and section_blind. -/

open Sys2Proof Sys2Proof.Machine

namespace Sys2Proof.Machine

/-! ### Authority -/

/-- A write in a state that its field allows is refused REFUSED_AUTHORITY when the effective authority is beneath that
of the field (R176, R178 step 3). -/
theorem writeRequest_beneath {table : Octet} {r : ReqArgs} {s : State} {x : Field} {a : Authority}
    (following : s.ring.mode = .following) (claimed : claimedAuthority r.claimed = some a) (mode : table ≠ 15)
    (field : (tableFields table.toNat r.index.toNat)[r.field.toNat]? = some x) (state : x.when.allows s = true)
    (beneath : (effectiveAuthority s.lines.serviceKey a).reaches x.level = false) :
    inFollowing (writeRequest table r) s = refuse table r .refusedAuthority s := by
  simp only [inFollowing, following, if_true, writeRequest, withAuthority, claimed, field, if_neg mode]
  unfold writeChecked
  dsimp only
  rw [if_neg (by simp [state]), if_pos (.inr (by simp [beneath]))]

/-- A claim of SERVICE or FACTORY is one of the two levels above OPERATOR (R174). -/
theorem claimedAuthority_above {code : Octet} (h : code = 2 ∨ code = 3) :
    ∃ a, claimedAuthority code = some a ∧ a.reaches .service = true := by
  obtain rfl | rfl := h
  · exact ⟨.service, rfl, rfl⟩
  · exact ⟨.factory, rfl, rfl⟩

/-- An unsigned figure within its range is taken as written (R178 step 6). -/
theorem take_unsigned {lo hi : Nat} (w : Word) (low : lo ≤ w.toNat) (high : w.toNat ≤ hi) :
    Form.take (.unsigned lo hi) w = some ((w.toNat : Int), false) := by
  have kept : clampInt lo hi w.toNat = w.toNat := clampInt_of_mem (by omega) (by omega)
  simp [Form.take, kept]

/-! ### Writes of the converter settings and of present -/

/-- A write of a converter setting that its authority reaches and whose value is in range is taken (R70, R89). -/
theorem converterWrite_taken {l : Authority} {r : ReqArgs} {s : State} {lo hi : Nat} {x : Field}
    (h : ReachedAt l r s) (index : r.index = 0) (field : converterFields[r.field.toNat]? = some x)
    (form : x.form = .unsigned lo hi) (always : x.when = .always) (level : x.level.rank ≤ l.rank)
    (low : lo ≤ r.value.toNat) (high : r.value.toNat ≤ hi) : inFollowing (writeRequest 9 r) s =
      prepare (replyTo 9 r .ok r.value) (writeConverter r.field.toNat r.value.toNat s) := by
  have written := writeRequest_checked (table := 9) h (by decide) field level (by rw [always]; rfl)
    (by rw [form]; simp) (by rw [index]; rfl) (by rw [form]; exact take_unsigned r.value low high)
  rw [wordOf_toNat] at written
  exact written

/-- Sections at the blind answer take a new section_blind at once (R70). -/
theorem writeSectionBlind_eq (f : Nat) (s : State) : writeSectionBlind f s = { s with
    power := { s.power with sectionBlind := f }
    sects := s.sects.map fun x =>
      if x.present = true ∧ (x.blind = true ∨ x.curveFallback = true) then { x with thermal := f } else x } := by
  simp only [writeSectionBlind, Bool.and_eq_true, Bool.or_eq_true]

/-- A write of section_blind within its range is taken in every state (R70). -/
theorem sectionBlindWrite_taken {r : ReqArgs} {s : State} (h : ReachedAt .service r s) (index : r.index = 0)
    (high : r.value.toNat ≤ 256) : exec (.sectionBlindWrite r) s =
      .next (prepare (replyTo 9 { r with field := 3 } .ok r.value) (writeSectionBlind r.value.toNat s)) :=
  congrArg Host.Outcome.next (converterWrite_taken (r := { r with field := 3 }) h index rfl rfl rfl (le_refl _)
    (Nat.zero_le _) high)

section present

variable {i : Fin 6} {s : State}

/-- Outside OPERATING a write of present is taken (R73). -/
theorem sectionPresentWrite_taken {r : ReqArgs} (h : ReachedAt .service r s) (index : r.index.toNat = i.val)
    (idle : s.sup.nacelle ≠ .operating) (flag : r.value.toNat < 2) : exec (.sectionPresentWrite r) s =
      .next (prepare (replyTo 8 { r with field := 0 } .ok r.value) (writePresent i (decide (r.value = 1)) s)) := by
  have written := writeRequest_checked (table := 8) (r := { r with field := 0 }) h (by decide)
    (x := service flagForm .notOperating) rfl (le_refl _) (by simpa [service, When.allows] using idle) (by decide)
    (by simp [indexTaken, tableSize, index]) (take_flag r.value flag)
  rw [show applyWrite _ _ _ _ _ = some (writePresent (Fin.ofNat 6 r.index.toNat) (flagOf r.value.toNat) s) from rfl,
    fin_ofNat_of_eq i _ index, flagOf_eq r.value flag, wordOf_toNat] at written
  exact congrArg Host.Outcome.next written

/-- A section that becomes present is HELD, and blind without a usable heatsink (R73, R82). -/
theorem writePresent_on (absent : s.sects[i].present = false) (lost : s.channels[s.sects[i].heatsink].state ≠ .live) :
    writePresent i true s = raise CauseNo.sectionBlind .derate (.sect i) (some (unsignedFigure s.power.sectionBlind))
      (s.setSect i { s.sects[i] with
        present := true, state := .held, faultHold := false, health := 256, capability := 0
        thermal := s.power.sectionBlind, blind := true, curveFallback := false }) := by
  let x : Sect := { s.sects[i] with
    present := true, state := .held, faultHold := false, health := 256, capability := 0 }
  have placed : (s.setSect i x).sects[i] = x := s.setSect_at i x
  have unusable : chanValue (s.setSect i x) (s.setSect i x).sects[i].heatsink = none := by
    rw [placed]
    exact if_neg (mt of_decide_eq_true lost)
  have written : writePresent i true s = thermalNow i (s.setSect i x) := by
    simp only [writePresent, absent, Bool.true_eq_false, if_false, if_true, x]
  rw [written, thermalNow, unusable]
  dsimp only
  rw [heatsinkLoss_eq i _ (by rw [placed]), placed]
  simp only [State.setSect, Vector.set_set, x]

/-- A section that is no longer present is ABSENT (R73). -/
theorem writePresent_off (present : s.sects[i].present = true) : writePresent i false s = s.setSect i { s.sects[i] with
    present := false, state := .absent, faultHold := false, blind := false, curveFallback := false
    capability := 0 } := by
  simp only [writePresent, present, Bool.false_eq_true, if_false]

end present

end Sys2Proof.Machine

/-- Settles O35: with the key off every claim acts at OPERATOR, beneath the three fields; with it on SERVICE is beneath
nacelle_rating alone. -/
theorem serviceKeyCapsAuthority : Obligations.ServiceKeyCapsAuthority := by
  refine ⟨fun on s => rfl, ?_⟩
  rintro s ⟨code, tag, _, field, value⟩ following claims rfl reply refused
  obtain ⟨a, claimed, above⟩ := claimedAuthority_above claims
  have beneath {f : Octet} {x : Field} (listed : converterFields[f.toNat]? = some x) (always : x.when = .always)
      (low : (effectiveAuthority s.lines.serviceKey a).reaches x.level = false) :
      inFollowing (writeRequest 9 ⟨code, tag, 0, f, value⟩) s =
        refuse 9 ⟨code, tag, 0, f, value⟩ .refusedAuthority s :=
    writeRequest_beneath following claimed (by decide) listed (by rw [always]; rfl) low
  refine ⟨fun off => ⟨?_, ?_⟩, fun on => ?_⟩
  · rintro (rfl | rfl)
    · exact congrArg Host.Outcome.next (beneath rfl rfl (by rw [off]; rfl))
    · exact congrArg Host.Outcome.next (beneath rfl rfl (by rw [off]; rfl))
  · rintro rfl
    exact congrArg Host.Outcome.next (beneath rfl rfl (by rw [off]; rfl))
  have reached {l : Authority} (reaches : a.reaches l = true) {f : Octet} :
      ReachedAt l ⟨code, tag, 0, f, value⟩ s :=
    ⟨following, a, claimed, by rw [on]; exact reaches⟩
  refine ⟨?_, ?_, ?_, ?_⟩
  · rintro rfl rfl
    obtain rfl : Authority.service = a := Option.some.inj claimed
    exact congrArg Host.Outcome.next (beneath rfl rfl (by rw [on]; rfl))
  · rintro rfl rfl high
    obtain rfl : Authority.factory = a := Option.some.inj claimed
    exact congrArg Host.Outcome.next
      (converterWrite_taken (reached rfl : ReachedAt .factory _ s) rfl rfl rfl rfl (le_refl _) (Nat.zero_le _) high)
  · rintro rfl low high
    exact congrArg Host.Outcome.next
      (converterWrite_taken (reached above) rfl rfl rfl rfl (le_refl _) low high)
  · rintro rfl high
    exact ⟨_, sectionBlindWrite_taken (reached above) rfl high, rfl, rfl⟩

/-- Settles O43: a section that becomes present takes the loss of its heatsink at once. -/
theorem sectionWritesTakeEffect : Obligations.SectionWritesTakeEffect := by
  intro r s h reply
  refine ⟨fun i index idle => ⟨fun on absent lost => ?_, fun off present => ?_⟩, fun index high => ?_⟩
  · have taken := sectionPresentWrite_taken h index idle (by rw [on]; decide)
    rw [decide_eq_true on, writePresent_on absent lost] at taken
    exact taken
  · have taken := sectionPresentWrite_taken h index idle (by rw [off]; decide)
    rw [decide_eq_false (by rw [off]; decide), writePresent_off present] at taken
    exact taken
  · rw [sectionBlindWrite_taken h index high, writeSectionBlind_eq]
    rfl

end


section
/-! PROOF. The stop line, START and STOP, and the commands that release and hold a section. -/

open Sys2Proof Sys2Proof.Machine

namespace Sys2Proof.Machine

/-! ### Stops that leave the yaw -/

/-- A stop whose reason permits the yaw holds the sections and leaves the yaw (R81, R116, R124, R167). -/
theorem stopDemand_permitting {reason : StopReason} {s : State} (permits : barsYaw reason = false)
    (operating : s.sup.nacelle = .operating) :
    stopDemand reason s = holdOnline (putNacelle .stopped reason s) := by
  rw [stopDemand_of_operating _ s operating, enterStopped]
  simp [permits]

/-! ### Checks in order -/

/-- Checks that say what a list of conditions says pass when all of these hold, and fail with the number of the first
that does not (R184). -/
theorem firstFailing_of_conditions {checks : List Bool} {conditions : List Prop}
    (same : List.Forall₂ (fun b p => b = true ↔ p) checks conditions) :
    ((∀ p ∈ conditions, p) → firstFailing checks = none) ∧
    ∀ n : Nat, (∀ m < n, conditions.getD m True) → ¬ conditions.getD n True →
      firstFailing checks = some (n + 1) := by
  induction same with
  | nil => exact ⟨fun _ => rfl, fun n _ fails => by simp at fails⟩
  | @cons b p checks conditions this rest ih =>
    obtain ⟨all, first⟩ := ih
    constructor
    · intro holds
      obtain rfl : b = true := this.2 (holds p List.mem_cons_self)
      simp only [firstFailing, all fun q mem => holds q (List.mem_cons_of_mem _ mem), Option.map_none]
    · intro n before fails
      cases n with
      | zero =>
        obtain rfl : b = false := Bool.eq_false_iff.2 (mt this.1 fails)
        rfl
      | succ n =>
        obtain rfl : b = true := this.2 (before 0 n.succ_pos)
        simp only [firstFailing, first n (fun m early => before (m + 1) (Nat.succ_lt_succ early)) fails,
          Option.map_some]

/-! ### START -/

theorem stopLimitUnbound_iff (s : State) : stopLimitUnbound s = true ↔ ∃ i : Fin 96,
    s.limits[i].enable = true ∧ s.limits[i].action = .nacelleStop ∧ s.limits[i].level = .unbound := by
  simp [stopLimitUnbound, someIdx, and_assoc]

theorem stopLimitTripped_iff (s : State) : stopLimitTripped s = true ↔ ∃ i : Fin 96,
    s.limits[i].enable = true ∧ s.limits[i].action = .nacelleStop ∧ s.limits[i].level = .trip := by
  simp only [stopLimitTripped, Bool.not_eq_true', List.isEmpty_eq_false_iff_exists_mem, mem_tripped]
  exact exists_congr fun i => and_congr_right fun _ => and_comm

/-- The seven checks of START (R166). -/
theorem startChecks_conditions (s : State) : List.Forall₂ (fun b p => b = true ↔ p) (startChecks s)
    [s.ring.broken = false, s.lines.estopIn = false, 0 < s.power.rating, ∀ i : Fin 5, 2 ≤ s.curves[i].count,
      ¬ ∃ i : Fin 96, s.limits[i].enable = true ∧ s.limits[i].action = .nacelleStop ∧
        s.limits[i].level = .unbound,
      ¬ ∃ i : Fin 96, s.limits[i].enable = true ∧ s.limits[i].action = .nacelleStop ∧
        s.limits[i].level = .trip,
      s.causes[CauseNo.twistHard].pending = false] := by
  have not_iff {b : Bool} {p : Prop} (h : b = true ↔ p) : (!b) = true ↔ ¬ p := by
    rw [Bool.not_eq_true', ← Bool.not_eq_true, h]
  refine .cons (Bool.not_eq_true' _ ▸ Iff.rfl) (.cons (Bool.not_eq_true' _ ▸ Iff.rfl) (.cons decide_eq_true_iff
    (.cons ?_ (.cons (not_iff (stopLimitUnbound_iff s)) (.cons (not_iff (stopLimitTripped_iff s))
      (.cons (Bool.not_eq_true' _ ▸ Iff.rfl) .nil))))))
  simp [Curve.isSet]

/-- From LOADING and STOPPED the checks of START decide (R166). -/
theorem startRefusal_waiting {s : State} (waiting : s.sup.nacelle = .loading ∨ s.sup.nacelle = .stopped) :
    startRefusal s = firstFailing (startChecks s) := by
  obtain loading | stopped := waiting
  · simp only [startRefusal, loading]
  · simp only [startRefusal, stopped]

theorem startRefusal_other {s : State} (other : ¬ (s.sup.nacelle = .loading ∨ s.sup.nacelle = .stopped)) :
    startRefusal s = some 0 := by
  unfold startRefusal
  cases nacelle : s.sup.nacelle with
  | loading => exact absurd (.inl nacelle) other
  | stopped => exact absurd (.inr nacelle) other
  | operating | test => rfl

/-! ### SECTION_RELEASE and SECTION_HOLD -/

/-- A status channel reads READY when it is usable with value 1 (R38, R72). -/
theorem status_ready_iff (s : State) (ch : Fin 128) : (chanValue s ch).map nodeStatus = some .ready ↔
    s.channels[ch].state = .live ∧ s.channels[ch].value = 1 := by
  have ready (v : Int) : nodeStatus v = .ready ↔ v = 1 := by
    unfold nodeStatus
    grind
  unfold chanValue usable
  by_cases live : s.channels[ch].state = .live
  · simp [-Fin.getElem_fin, live, ready]
  · simp [-Fin.getElem_fin, live]

/-- The five checks of SECTION_RELEASE (R74). -/
theorem releaseChecks_conditions (i : Fin 6) (s : State) :
    let x := s.sects[i]
    List.Forall₂ (fun b p => b = true ↔ p) (releaseChecks i s)
      [s.sup.nacelle = .operating, x.state = .held, s.cool.dry = true,
        s.channels[x.status].state = .live ∧ s.channels[x.status].value = 1, s.channels[x.heatsink].state = .live] :=
  .cons decide_eq_true_iff (.cons decide_eq_true_iff (.cons Iff.rfl
    (.cons (decide_eq_true_iff.trans (status_ready_iff s _)) (.cons decide_eq_true_iff .nil))))

/-- SECTION_HOLD is refused for any section but an ONLINE or HELD one (R75). -/
theorem holdChecks_eq (i : Fin 6) (s : State) : firstFailing (holdChecks i s) =
    if s.sects[i].state = .online ∨ s.sects[i].state = .held then none else some 1 := by
  unfold holdChecks
  by_cases takes : s.sects[i].state = .online ∨ s.sects[i].state = .held
  · rw [if_pos takes, firstFailing_eq_none _ (by simpa [-Fin.getElem_fin] using takes)]
  · have fails : (decide (s.sects[i].state = .online) || decide (s.sects[i].state = .held)) = false := by
      simpa [-Fin.getElem_fin] using takes
    rw [if_neg takes, fails]
    rfl

end Sys2Proof.Machine

/-- Settles O34: EXTERNAL_STOP is in no group that bars the yaw. -/
theorem estopLineStopsNacelle : Obligations.EstopLineStopsNacelle := by
  have asserted (s : State) (idle : s.lines.estopIn = false) : exec .estopAsserted s = .next (stopDemand (.cause 6)
      { raise 6 .nacelleStop .none none s with lines := { s.lines with estopIn := true } }) := by
    rw [← raise_with_lines]
    show Host.Outcome.next (estopOn s) = _
    rw [estopOn, idle]
    rfl
  refine ⟨fun s idle operating => ?_, fun s idle other => ?_, fun s _ => rfl⟩
  · have sup : (raise 6 .nacelleStop .none none s).sup = s.sup := raise_sup ..
    have sects : (raise 6 .nacelleStop .none none s).sects = s.sects := raise_sects ..
    rw [asserted s idle, stopDemand_permitting rfl (by rw [sup]; exact operating), holdOnline, putNacelle]
    simp only [sup, sects]
    rfl
  · rw [asserted s idle, stopDemand_of_not_operating]
    rw [raise_sup]
    exact other

/-- Settles O49: the checks of START are the seven conditions in order, and MANAGEMENT permits the yaw. -/
theorem startAndStopMoveNacelle : Obligations.StartAndStopMoveNacelle := by
  intro r s h reply checks waiting
  obtain ⟨all, first⟩ := firstFailing_of_conditions (startChecks_conditions s)
  have taken := commandRequest_taken (no := 1) startCommand h (le_refl _) rfl rfl
  have refused {n : Nat} := commandRequest_refused (no := 1) (n := n) startCommand h (le_refl _) rfl rfl
  have stopped := commandRequest_taken (no := 2) stopCommand h (le_refl _) rfl rfl rfl
  refine ⟨fun from_ holds => ?_, fun from_ n before fails => ?_, fun other => ?_, fun operating => ?_,
    fun other => ?_⟩
  · exact congrArg Host.Outcome.next (taken ((startRefusal_waiting from_).trans (all holds)))
  · exact congrArg Host.Outcome.next (refused ((startRefusal_waiting from_).trans
      (first n (fun m early => before ⟨m, early.trans n.isLt⟩ early) fails)))
  · exact congrArg Host.Outcome.next (refused (startRefusal_other other))
  · refine congrArg Host.Outcome.next (stopped.trans ?_)
    rw [show stopCommand.effect s = _ from stopDemand_permitting rfl operating]
    rfl
  · refine congrArg Host.Outcome.next (stopped.trans ?_)
    rw [show stopCommand.effect s = _ from stopDemand_of_not_operating _ s other]
    rfl

/-- Settles O52: the checks of SECTION_RELEASE are the five conditions in order. -/
theorem sectionReleaseAndHold : Obligations.SectionReleaseAndHold := by
  intro r s h reply
  constructor
  · intro above
    have outside : decide (r.index.toNat < 6) = false := decide_eq_false (by omega)
    have release := commandRequest_reached (no := 6) (sectionReleaseCommand r) h (le_refl _)
    have hold := commandRequest_reached (no := 7) (sectionHoldCommand r) h (le_refl _)
    rw [show (sectionReleaseCommand r).indexOk = false from outside] at release
    rw [show (sectionHoldCommand r).indexOk = false from outside] at hold
    exact ⟨congrArg Host.Outcome.next release, congrArg Host.Outcome.next hold⟩
  · intro i index x put checks
    have inside : decide (r.index.toNat < 6) = true := decide_eq_true (by omega)
    obtain rfl : sectOf r.index = i := fin_ofNat_of_eq i _ index
    obtain ⟨all, first⟩ := firstFailing_of_conditions (releaseChecks_conditions (sectOf r.index) s)
    have holdTaken := commandRequest_taken (no := 7) (sectionHoldCommand r) h (le_refl _) inside rfl
    have holdCheck : (sectionHoldCommand r).refusal s = _ := holdChecks_eq (sectOf r.index) s
    refine ⟨fun holds => ?_, fun n before fails => ?_, fun online => ?_, fun held => ?_, fun other => ?_⟩
    · exact congrArg Host.Outcome.next
        (commandRequest_taken (no := 6) (sectionReleaseCommand r) h (le_refl _) inside rfl (all holds))
    · exact congrArg Host.Outcome.next
        (commandRequest_refused (no := 6) (sectionReleaseCommand r) h (le_refl _) inside rfl
          (first n (fun m early => before ⟨m, early.trans n.isLt⟩ early) fails))
    · refine congrArg Host.Outcome.next ((holdTaken (holdCheck.trans (if_pos (.inl online)))).trans ?_)
      rw [show (sectionHoldCommand r).effect s = put .held from if_pos online]
      rfl
    · refine congrArg Host.Outcome.next ((holdTaken (holdCheck.trans (if_pos (.inr held)))).trans ?_)
      have online : x.state ≠ .online := by rw [held]; decide
      rw [show (sectionHoldCommand r).effect s = s from if_neg online]
      rfl
    · have takes : ¬ (x.state = .online ∨ x.state = .held) := by
        obtain absent | isolated := other
        · simp [-Fin.getElem_fin, absent]
        · simp [-Fin.getElem_fin, isolated]
      exact congrArg Host.Outcome.next (commandRequest_refused (no := 7) (sectionHoldCommand r) h (le_refl _) inside rfl
        (holdCheck.trans (if_neg takes)))

end


section
/-! PROOF. What a STATUS reply gives: the online count, the top cause, and the active groups. -/

open Sys2Proof Sys2Proof.Machine

namespace Sys2Proof.Machine

/-! ### The online count -/

theorem onlineCount_eq_sum (s : State) :
    onlineCount s = ∑ i : Fin 6, if s.sects[i].state = .online then 1 else 0 := by
  rw [onlineCount, allIdx_length, Finset.card_filter]

/-- What a change of one section does to the online count is what it does to that section (R84). -/
theorem onlineCount_setSect (s : State) (i : Fin 6) (x : Sect) :
    onlineCount (s.setSect i x) + (if s.sects[i].state = .online then 1 else 0) =
      onlineCount s + if x.state = .online then 1 else 0 := by
  have others : ∑ j ∈ Finset.univ.erase i, (if (s.setSect i x).sects[j].state = .online then 1 else 0) =
      ∑ j ∈ Finset.univ.erase i, if s.sects[j].state = .online then 1 else 0 :=
    Finset.sum_congr rfl fun j mem => by rw [State.setSect_at_ne s i j x (Finset.ne_of_mem_erase mem)]
  rw [onlineCount_eq_sum, onlineCount_eq_sum, ← Finset.add_sum_erase _ _ (Finset.mem_univ i), others,
    ← Finset.add_sum_erase Finset.univ (fun j : Fin 6 => if s.sects[j].state = .online then 1 else 0)
      (Finset.mem_univ i), State.setSect_at]
  omega

/-! ### The top cause -/

/-- The place of a cause's group in the order of the top cause (R157). -/
def importance (c : Fin 128) : Nat :=
  [0, 6, 7, 2, 3, 4, 1, 5].idxOf (c.val / 16)

/-- A cause comes before another by the place of its group, and then by its number (R157). -/
def Outranks (c d : Fin 128) : Prop :=
  importance c < importance d ∨ importance c = importance d ∧ c < d

theorem Outranks.asymm {c d : Fin 128} (h : Outranks c d) : ¬ Outranks d c := by
  unfold Outranks at h ⊢
  omega

theorem mem_causesByImportance (c : Fin 128) : c ∈ causesByImportance := by
  have group (g : Fin 8) : g ∈ topOrder := by decide +revert
  refine List.mem_flatMap.2 ⟨⟨c.val / 16, by omega⟩, group _, ?_⟩
  simp [allIdx]

theorem causesByImportance_pairwise : causesByImportance.Pairwise Outranks := by
  have ordered : topOrder.Pairwise fun g h =>
      [0, 6, 7, 2, 3, 4, 1, 5].idxOf g.val < [0, 6, 7, 2, 3, 4, 1, 5].idxOf h.val := by decide
  refine List.pairwise_flatMap.2 ⟨fun g _ => ?_, ordered.imp fun {g h} before c mem_c d mem_d => .inl ?_⟩
  · refine ((List.pairwise_lt_finRange 128).sublist List.filter_sublist).imp_of_mem fun {c d} mem_c mem_d lower =>
      .inr ⟨?_, lower⟩
    simp only [allIdx, List.mem_filter, decide_eq_true_eq] at mem_c mem_d
    rw [importance, importance, mem_c.2, mem_d.2]
  · simp only [allIdx, List.mem_filter, decide_eq_true_eq] at mem_c mem_d
    rw [importance, importance, mem_c.2, mem_d.2]
    exact before

/-- The first in an ordered list that has a property comes before every other that has it. -/
theorem find?_eq_some_of_pairwise {α : Type} {R : α → α → Prop} (asymm : ∀ {a b}, R a b → ¬ R b a)
    {l : List α} (ordered : l.Pairwise R) (all : ∀ a, a ∈ l) (p : α → Bool) (a : α) :
    l.find? p = some a ↔ p a = true ∧ ∀ b, p b = true → b = a ∨ R a b := by
  have first {a : α} (found : l.find? p = some a) (b : α) (holds : p b = true) : b = a ∨ R a b := by
    obtain ⟨-, early, late, rfl, fails⟩ := List.find?_eq_some_iff_append.1 found
    obtain mem | mem := List.mem_append.1 (all b)
    · exact absurd holds (by simpa using fails b mem)
    · obtain rfl | mem := List.mem_cons.1 mem
      · exact .inl rfl
      · exact .inr ((List.pairwise_cons.1 (List.pairwise_append.1 ordered).2.1).1 b mem)
  refine ⟨fun found => ⟨List.find?_some found, first found⟩, fun ⟨holds, least⟩ => ?_⟩
  obtain ⟨b, found⟩ := Option.isSome_iff_exists.1 (List.find?_isSome.2 ⟨a, all a, holds⟩)
  obtain rfl | above := first found a holds
  · exact found
  · obtain rfl | below := least b (List.find?_some found)
    · exact found
    · exact absurd below (asymm above)

theorem counted_iff (s : State) (c : Fin 128) :
    counted s c = true ↔ s.causes[c].pending = true ∧ s.causes[c].summaryEnable = true := by
  simp [counted]

theorem topCause_eq_none_iff (s : State) : topCause s = none ↔ ∀ c, ¬ counted s c = true := by
  simp only [topCause, List.find?_eq_none]
  exact ⟨fun none_ c => none_ c (mem_causesByImportance c), fun none_ c _ => none_ c⟩

theorem topCause_eq_some_iff (s : State) (c : Fin 128) : topCause s = some c ↔
    counted s c = true ∧ ∀ d, counted s d = true → d = c ∨ Outranks c d :=
  find?_eq_some_of_pairwise Outranks.asymm causesByImportance_pairwise mem_causesByImportance _ c

theorem groupSummary_iff (s : State) (g : Fin 8) :
    groupSummary s g = true ↔ ∃ c : Fin 128, c.val / 16 = g.val ∧ counted s c = true := by
  simp [groupSummary, someIdx]

end Sys2Proof.Machine

/-- Settles O48: the list of causes that the top cause is looked up in is the order of R157. -/
theorem statusReplyGivesOnlineCount : Obligations.StatusReplyGivesOnlineCount := by
  refine ⟨fun s => ⟨List.countP_eq_length_filter.symm, List.length_filter_le _ _⟩, fun s => ?_,
    fun table r s h => ?_, fun s i x => ?_⟩
  · intro counts place
    have holds (c : Fin 128) : counted s c = true ↔ counts c := counted_iff s c
    have order (c d : Fin 128) : d = c ∨ Outranks c d ↔ place c < place d ∨ place c = place d ∧ c ≤ d := by
      show d = c ∨ (place c < place d ∨ place c = place d ∧ c < d) ↔ _
      constructor
      · rintro (rfl | h)
        · exact .inr ⟨rfl, le_refl _⟩
        · omega
      · omega
    refine ⟨?_, fun c => ?_, fun g => ?_⟩
    · simp only [topCause_eq_none_iff, holds]
    · simp only [topCause_eq_some_iff, holds, order]
    · simp only [groupSummary_iff, holds]
  · obtain ⟨a, -, handled⟩ := withAuthority_reached h table fun _ s => prepare (statusReply table r s) s
    exact congrArg Host.Outcome.next handled
  · have change := onlineCount_setSect s i x
    refine ⟨fun was is => ?_, fun was is => ?_, fun same => ?_⟩
    · rw [if_neg was, if_pos is] at change
      exact change
    · rw [if_pos was, if_neg is] at change
      exact change
    · simp only [same] at change
      omega

end


section
/-! PROOF. The yaw's movements: how they start, how a release ends, and the YAW command cell. -/

open Sys2Proof Sys2Proof.Machine

namespace Sys2Proof.Machine

/-! ### Directions and releases -/

/-- A turn increases |twist| when it leads away from zero, and either turn does at zero (R108). -/
theorem increasesTwist_iff (d : Turn) (z : Int) :
    increasesTwist d z = true ↔ d = .cw ∧ 0 ≤ z ∨ d = .ccw ∧ z ≤ 0 := by
  cases d with
  | cw => simp [increasesTwist]
  | ccw => simp [increasesTwist]

/-- A release, spelled out (R119). -/
theorem inRelease_iff (y : Yaw) : inRelease y = true ↔
    y.mode = .releasing ∨ (y.mode = .unwinding ∨ y.mode = .jogging) ∧ y.phase = .release := by
  unfold inRelease
  cases y.mode <;> simp

theorem brakeOpen_iff (s : State) : brakeOpen s = true ↔
    s.channels[s.yawCfg.brake].state = .live ∧ s.channels[s.yawCfg.brake].value = 1 := by
  simp [-Fin.getElem_fin, brakeOpen, chanValue, usable]

/-- The release condition of the two modes (R119). -/
theorem releaseDone_iff (s : State) : releaseDone s = true ↔
    s.yawCfg.releaseMode = .fixed ∧ s.yawCfg.releaseRounds ≤ s.yaw.releaseCount ∨
      s.yawCfg.releaseMode = .feedback ∧ s.yawCfg.releaseMin ≤ s.yaw.releaseCount ∧
        s.channels[s.yawCfg.brake].state = .live ∧ s.channels[s.yawCfg.brake].value = 1 := by
  rw [← brakeOpen_iff]
  unfold releaseDone
  cases s.yawCfg.releaseMode <;> simp

/-! ### Automatic starts -/

/-- The direction of an automatic start (R118). -/
def startTurn (s : State) : Turn :=
  if s.yaw.startPositive then .cw else .ccw

theorem startTurn_increases_iff (s : State) : increasesTwist (startTurn s) s.yaw.twist = true ↔
    s.yaw.startPositive = true ∧ 0 ≤ s.yaw.twist ∨ s.yaw.startPositive = false ∧ s.yaw.twist ≤ 0 := by
  rw [increasesTwist_iff, startTurn]
  cases s.yaw.startPositive <;> simp

section start

variable {s : State}
  (due : s.yaw.mode = .parked ∧ s.yawCfg.startTicks ≤ s.yaw.startCount ∧ yawPermitted s = true)
include due

/-- A start that does not wind twist up further from the threshold is a slew (R118). -/
theorem automaticStart_slews (free : ¬ (increasesTwist (startTurn s) s.yaw.twist = true ∧
    s.yawCfg.unwindThreshold ≤ s.yaw.twist.natAbs)) : automaticStart s =
      enterRelease .releasing (startTurn s) { s with yaw := { s.yaw with startCount := 0 } } :=
  (if_pos due).trans (if_neg (by rwa [Bool.and_eq_true, decide_eq_true_iff]))

/-- A start that would is an unwind, unless an unwind has been blocked (R118). -/
theorem automaticStart_unwinds (increases : increasesTwist (startTurn s) s.yaw.twist = true)
    (wound : s.yawCfg.unwindThreshold ≤ s.yaw.twist.natAbs) : automaticStart s =
      if s.causes[CauseNo.unwindBlocked].pending then { s with yaw := { s.yaw with startCount := 0 } }
      else enterUnwindWait { s with yaw := { s.yaw with startCount := 0 } } :=
  (if_pos due).trans (if_pos (by rw [Bool.and_eq_true, decide_eq_true_iff]; exact ⟨increases, wound⟩))

end start

/-! ### Entries to a slew -/

section slew

variable (s : State)

/-- A release that would drive past the hard limit stops with the end mark set (R120). -/
theorem enterSlew_hard (hard : s.yawCfg.twistHard ≤ s.yaw.twist.natAbs)
    (increases : increasesTwist s.yaw.turn s.yaw.twist = true) : enterSlew s = toStopping true s :=
  if_pos (by rw [Bool.and_eq_true, hardTwist, decide_eq_true_iff]; exact ⟨hard, increases⟩)

variable (free : ¬ (s.yawCfg.twistHard ≤ s.yaw.twist.natAbs ∧ increasesTwist s.yaw.turn s.yaw.twist = true))
include free

theorem enterSlew_free : enterSlew s =
    if s.yaw.mode = .releasing then
      if usable s s.yawCfg.vane then beginSlew .slewing s else toStopping false s
    else beginSlew s.yaw.mode s :=
  if_neg (by rwa [Bool.and_eq_true, hardTwist, decide_eq_true_iff])

/-- A release for an automatic slew stops while the vane is unusable (R120). -/
theorem enterSlew_blind (releasing : s.yaw.mode = .releasing) (lost : s.channels[s.yawCfg.vane].state ≠ .live) :
    enterSlew s = toStopping false s := by
  rw [enterSlew_free s free, if_pos releasing, usable, if_neg (by rwa [decide_eq_true_iff])]

/-- Otherwise it enters the slew of its movement (R119). -/
theorem enterSlew_begins (sees : ¬ (s.yaw.mode = .releasing ∧ s.channels[s.yawCfg.vane].state ≠ .live)) :
    enterSlew s = beginSlew (if s.yaw.mode = .releasing then .slewing else s.yaw.mode) s := by
  rw [enterSlew_free s free]
  by_cases releasing : s.yaw.mode = .releasing
  · have live : s.channels[s.yawCfg.vane].state = .live := not_not.1 fun lost => sees ⟨releasing, lost⟩
    rw [if_pos releasing, if_pos releasing, usable, if_pos (decide_eq_true live)]
  · rw [if_neg releasing, if_neg releasing]

end slew

/-- The yaw at the entry to a slew in `mode`: group A on, the counts at 0 (R120). -/
def slewBegun (mode : YawMode) (s : State) : Yaw :=
  { s.yaw with
    mode := mode, phase := .slew, staggerCount := 0, slewCount := 0, stallCount := 0
    stallRef := s.yaw.twist, groupB := decide (s.yawCfg.stagger = 0) }

/-- An unwind that has reached its target stops at the entry to its slew (R127). -/
theorem beginSlew_met (s : State) (met : s.yaw.twist.natAbs ≤ s.yawCfg.unwindTarget) :
    beginSlew .unwinding s = { s with
      lines := { s.lines with brakeHold := false }
      yaw := { slewBegun .unwinding s with mode := .stopping, groupB := false, coastCount := 0 } } :=
  (if_pos ⟨rfl, rfl, met⟩).trans (toStopping_false (putYaw (slewBegun .unwinding s) s))

theorem beginSlew_drives (mode : YawMode) (s : State)
    (apart : ¬ (mode = .unwinding ∧ s.yaw.twist.natAbs ≤ s.yawCfg.unwindTarget)) :
    beginSlew mode s = putYaw (slewBegun mode s) s :=
  if_neg fun ⟨unwinding, _, met⟩ => apart ⟨unwinding, met⟩

theorem releaseEnd_due {s : State} (releasing : inRelease s.yaw = true) (done : releaseDone s = true) :
    releaseEnd s = enterSlew s :=
  if_pos (by rw [releasing, done]; rfl)

theorem groupBStart_due {s : State} (slewing : inSlew s.yaw = true)
    (reached : s.yawCfg.stagger ≤ s.yaw.staggerCount) :
    groupBStart s = { s with yaw := { s.yaw with groupB := true } } :=
  if_pos (by rw [slewing, decide_eq_true reached]; rfl)

/-! ### The YAW command cell -/

/-- A slew has its motors on and the brake released (R117). -/
theorem yawCommand_slewing {y : Yaw} (slewing : inSlew y = true) : brakeApplied y.mode = false ∧
    yawCommand y = ((if y.groupB then 3 else 1) + (if y.turn = .ccw then 4 else 0), 4) := by
  rw [yawCommand_eq, ← inSlew_eq, slewing]
  obtain mode | ⟨mode | mode, _⟩ := (inSlew_iff y).1 slewing <;> rw [mode] <;> simp [brakeApplied]

/-- In every other state the cell has no motor on, and releases the brake where it is not applied (R117). -/
theorem yawCommand_still {y : Yaw} (still : inSlew y = false) : ∃ turning : Bool,
    yawCommand y = (if turning then 4 else 0, if brakeApplied y.mode then 0 else 4) := by
  rw [yawCommand_eq, ← inSlew_eq, still, brakeApplied_eq]
  refine ⟨!decide (y.mode = .parked ∨ y.mode = .unwindWait ∨ y.mode = .held) && decide (y.turn = .ccw), ?_⟩
  simp

end Sys2Proof.Machine

/-- Settles O60: a slew, which has the brake released, gives 1 or 3 for its groups, and any other state 0. -/
theorem yawCommandKeepsMotorsOffTheBrake : Obligations.YawCommandKeepsMotorsOffTheBrake := by
  intro y value flags
  by_cases slewing : inSlew y = true
  · obtain ⟨released, cell⟩ := yawCommand_slewing slewing
    have on : value = (if y.groupB then 3 else 1) + (if y.turn = .ccw then 4 else 0) := congrArg Prod.fst cell
    have unbraked : flags = 4 := congrArg Prod.snd cell
    refine ⟨?_, .inr unbraked, fun _ => unbraked, fun _ => (inSlew_iff y).1 slewing, ?_, by simp [unbraked, released]⟩
    · grind
    · grind
  · obtain ⟨turning, cell⟩ := yawCommand_still (Bool.eq_false_iff.2 slewing)
    have off : value = if turning then 4 else 0 := congrArg Prod.fst cell
    have brake : flags = if brakeApplied y.mode then 0 else 4 := congrArg Prod.snd cell
    have none_ : value % 4 = 0 := by grind
    refine ⟨by grind, by grind, fun on => absurd none_ on, fun on => absurd none_ on, by omega, by grind⟩

/-- Settles O28: the start is due when its count and the four conditions of permission stand, and its direction
decides between slew and unwind. -/
theorem automaticStartTurnsOrUnwinds : Obligations.AutomaticStartTurnsOrUnwinds := by
  intro s permits permitted due cw adds wound
  have condition : s.yaw.mode = .parked ∧ s.yawCfg.startTicks ≤ s.yaw.startCount ∧ yawPermitted s = true ↔ due := by
    rw [yawPermitted_iff]
  have direction : increasesTwist (startTurn s) s.yaw.twist = true ↔ adds := startTurn_increases_iff s
  refine ⟨fun idle => ?_, fun starts free => ?_, fun starts increases winds clear => ?_,
    fun starts increases winds blocked => ?_⟩
  · exact congrArg Host.Outcome.next (automaticStart_of_not_due s (mt condition.1 idle))
  · exact congrArg Host.Outcome.next (automaticStart_slews (condition.2 starts) (by rwa [direction]))
  · exact congrArg Host.Outcome.next ((automaticStart_unwinds (condition.2 starts) (direction.2 increases) winds).trans
      (if_neg (Bool.eq_false_iff.1 clear)))
  · exact congrArg Host.Outcome.next ((automaticStart_unwinds (condition.2 starts) (direction.2 increases) winds).trans
      (if_pos blocked))

/-- Settles O29: the three checks at the entry to a slew, in the order in which they are made. -/
theorem releaseEndEntersSlew : Obligations.ReleaseEndEntersSlew := by
  refine ⟨?_, fun s slewing reached => ?_⟩
  · intro s releasing done hard blind met slew does
    have ends : exec .releaseEnd s = .next (enterSlew s) := congrArg Host.Outcome.next
      (releaseEnd_due ((inRelease_iff _).2 releasing) ((releaseDone_iff s).2 done))
    have limit : s.yawCfg.twistHard ≤ s.yaw.twist.natAbs ∧ increasesTwist s.yaw.turn s.yaw.twist = true ↔ hard := by
      rw [increasesTwist_iff]
    refine ⟨fun stops => ?_, fun free lost => ?_, fun free reached => ?_, fun free sees apart => ?_⟩
    · obtain ⟨far, increases⟩ := limit.2 stops
      exact ends.trans (congrArg Host.Outcome.next ((enterSlew_hard s far increases).trans (toStopping_true s)))
    · exact ends.trans (congrArg Host.Outcome.next
        ((enterSlew_blind s (mt limit.1 free) lost.1 lost.2).trans (toStopping_false s)))
    · obtain ⟨unwinding, near⟩ := reached
      have moves : s.yaw.mode ≠ .releasing := by rw [unwinding]; decide
      have begins := enterSlew_begins s (mt limit.1 free) fun lost => moves lost.1
      rw [if_neg moves, unwinding, beginSlew_met s near] at begins
      exact ends.trans (congrArg Host.Outcome.next begins)
    · have begins := enterSlew_begins s (mt limit.1 free) sees
      have drives : ¬ ((if s.yaw.mode = .releasing then .slewing else s.yaw.mode) = YawMode.unwinding ∧
          s.yaw.twist.natAbs ≤ s.yawCfg.unwindTarget) := by
        grind
      have brake : brakeApplied (if s.yaw.mode = .releasing then .slewing else s.yaw.mode) = false := by
        obtain mode | ⟨mode | mode, _⟩ := releasing <;> rw [mode] <;> rfl
      rw [beginSlew_drives _ s drives, putYaw, slewBegun, brake] at begins
      exact ends.trans (congrArg Host.Outcome.next begins)
  · exact congrArg Host.Outcome.next (groupBStart_due ((inSlew_iff _).2 slewing) reached)

end


section
/-! PROOF. The faults and the ends of the yaw's movements, and the yaw unit's work at a close. -/

open Sys2Proof Sys2Proof.Machine

namespace Sys2Proof.Machine

/-! ### The yaw at HELD and at PARKED -/

/-- A yaw that is not in HELD goes there with its counts at 0 and its factor restored (R115, R124). -/
theorem yawToHeld_of_moving (s : State) (moving : s.yaw.mode ≠ .held) : yawToHeld s =
    { s with
      lines := { s.lines with brakeHold := true }
      yaw := { s.yaw with
        mode := .held, endMark := false, unwindMark := false
        factor := if s.yaw.unwindMark then s.yaw.saved else s.yaw.factor
        groupB := false, releaseCount := 0, staggerCount := 0, slewCount := 0, stallCount := 0
        coastCount := 0, brakeCount := 0, idleCount := 0, waitCount := 0 } } :=
  if_neg moving

/-- A movement has left HELD. -/
theorem mode_ne_held_of_inRelease {y : Yaw} (releasing : inRelease y = true) : y.mode ≠ .held := by
  intro held
  rw [inRelease, held] at releasing
  exact Bool.noConfusion releasing

/-! ### Faults -/

section fault

variable {s : State}

/-- A FEEDBACK release that lasts release_max without an open brake (R119). -/
theorem brakeStuck_due (releasing : inRelease s.yaw = true) (feedback : s.yawCfg.releaseMode = .feedback)
    (late : s.yawCfg.releaseMax ≤ s.yaw.releaseCount) (unfinished : ¬ releaseDone s = true) : brakeStuck s =
      yawToHeld (raise CauseNo.brakeStuck .yawHold .none (some (unsignedFigure s.yaw.releaseCount)) s) :=
  if_pos (by simp [releasing, feedback, late, unfinished])

theorem stallAdvance_eq (y : Yaw) :
    stallAdvance y = if y.turn = .cw then y.twist - y.stallRef else y.stallRef - y.twist := by
  unfold stallAdvance
  cases y.turn <;> rfl

/-- The end of a stall window in a slew (R122). -/
theorem yawStall_due (slewing : inSlew s.yaw = true) (reached : s.yawCfg.stallWindow ≤ s.yaw.stallCount) :
    yawStall s = if stallAdvance s.yaw < s.yawCfg.stallMin then
        toStopping true (raise CauseNo.yawStall .yawHold .none (some (signedFigure (stallAdvance s.yaw))) s)
      else { s with yaw := { s.yaw with stallRef := s.yaw.twist, stallCount := 0 } } :=
  if_pos (by rw [slewing, decide_eq_true reached]; rfl)

end fault

/-! ### The close work -/

/-- A close counts as idle (R126). -/
theorem idleClose_iff (s : State) : idleClose s = true ↔ yawPermitted s = true ∧ s.power.issuedSum = 0 ∧
    ∀ i : Fin 6, s.sects[i].state = .online → s.channels[s.sects[i].feedback].state = .live ∧
      s.channels[s.sects[i].feedback].value.natAbs ≤ s.yawCfg.idleBand := by
  rw [idleClose, Bool.and_eq_true, Bool.and_eq_true, decide_eq_true_iff, List.all_eq_true, and_assoc]
  refine and_congr_right fun _ => and_congr_right fun _ => forall_congr' fun i => ?_
  by_cases live : s.channels[s.sects[i].feedback].state = .live
  · simp [-Fin.getElem_fin, chanValue, usable, live, imp_iff_not_or]
  · simp [-Fin.getElem_fin, chanValue, usable, live]

section close

variable (s : State)

/-- The counts of a release (R119). -/
theorem yawTimers_release (releasing : inRelease s.yaw = true) : yawTimers s =
    brakeStuck (releaseEnd { s with yaw := { s.yaw with releaseCount := s.yaw.releaseCount + 1 } }) :=
  if_pos releasing

/-- The counts of a slew (R120, R122, R128). -/
theorem yawTimers_slew (slewing : inSlew s.yaw = true) : yawTimers s =
    jogEnd (yawOvertime (yawStall (groupBStart { s with yaw := { s.yaw with
      staggerCount := s.yaw.staggerCount + 1, slewCount := s.yaw.slewCount + 1
      stallCount := s.yaw.stallCount + 1 } }))) := by
  have released : ¬ inRelease s.yaw = true := by
    rw [inRelease_iff]
    obtain mode | ⟨mode | mode, phase⟩ := (inSlew_iff _).1 slewing <;> simp [*]
  exact (if_neg released).trans (if_pos slewing)

/-- The coast count (R123). -/
theorem yawTimers_stopping (stopping : s.yaw.mode = .stopping) : yawTimers s =
    coastEnd { s with yaw := { s.yaw with coastCount := s.yaw.coastCount + 1 } } := by
  simp only [yawTimers, inRelease, inSlew, stopping, Bool.false_eq_true, if_false]

/-- The brake count (R123). -/
theorem yawTimers_braking (braking : s.yaw.mode = .braking) : yawTimers s =
    brakeEnd { s with yaw := { s.yaw with brakeCount := s.yaw.brakeCount + 1 } } := by
  simp only [yawTimers, inRelease, inSlew, braking, Bool.false_eq_true, if_false]

/-- The idle count and the wait count (R126). -/
theorem yawTimers_unwindWait (waiting : s.yaw.mode = .unwindWait) : yawTimers s =
    unwindBlocked (idleConfirm { s with yaw := { s.yaw with
      idleCount := if idleClose s then s.yaw.idleCount + 1 else 0, waitCount := s.yaw.waitCount + 1 } }) := by
  simp only [yawTimers, inRelease, inSlew, waiting, Bool.false_eq_true, if_false]

/-- A yaw at rest counts nothing. -/
theorem yawTimers_rest (rests : s.yaw.mode = .parked ∨ s.yaw.mode = .held) : yawTimers s = s := by
  obtain mode | mode := rests
  · simp only [yawTimers, inRelease, inSlew, mode, Bool.false_eq_true, if_false]
  · simp only [yawTimers, inRelease, inSlew, mode, Bool.false_eq_true, if_false]

end close

end Sys2Proof.Machine

/-- Settles O30: a rise leaves the yaw, so each fault stops or holds the movement as it stood. -/
theorem yawFaultsHoldOrStop : Obligations.YawFaultsHoldOrStop := by
  refine ⟨fun s releasing feedback late closed => ?_, ?_, fun s slewing reached => ?_,
    fun s other => congrArg Host.Outcome.next (if_neg fun due => other due.1)⟩
  · have moving := (inRelease_iff s.yaw).2 releasing
    have unfinished : ¬ releaseDone s = true := by
      rw [releaseDone_iff]
      rintro (⟨fixed, _⟩ | ⟨_, done⟩)
      · rw [feedback] at fixed
        cases fixed
      · exact closed done
    refine congrArg Host.Outcome.next ((brakeStuck_due moving feedback late unfinished).trans ?_)
    rw [yawToHeld_of_moving _ (by rw [raise_yaw]; exact mode_ne_held_of_inRelease moving), raise_yaw, raise_lines]
  · intro s slewing reached advance
    have due := yawStall_due ((inSlew_iff _).2 slewing) reached
    rw [stallAdvance_eq] at due
    refine ⟨fun short => ?_, fun far => ?_⟩
    · rw [if_pos short, toStopping_true, raise_yaw, raise_lines] at due
      exact congrArg Host.Outcome.next due
    · rw [if_neg (not_lt.2 far)] at due
      exact congrArg Host.Outcome.next due
  · have due : yawOvertime s = _ := if_pos ⟨slewing, reached⟩
    rw [toStopping_false, raise_yaw, raise_lines] at due
    exact congrArg Host.Outcome.next due

/-- Settles O31: each end is its count's own step, and a close is the step of the state's count with its tests and then
the tick. -/
theorem yawMovementEnds : Obligations.YawMovementEnds := by
  refine ⟨fun s stopping reached => congrArg Host.Outcome.next (if_pos ⟨stopping, reached⟩), ?_,
    fun s waiting reached => congrArg Host.Outcome.next (if_pos ⟨waiting, reached⟩), ?_,
    fun s jogging phase reached => ?_, ?_⟩
  · intro s braking reached f
    have due : brakeEnd s = _ := if_pos ⟨braking, reached⟩
    refine ⟨fun marked => ?_, fun bare => ?_⟩
    · rw [if_pos marked, yawToHeld_of_moving s (by rw [braking]; decide)] at due
      exact congrArg Host.Outcome.next due
    · rw [if_neg (Bool.eq_false_iff.1 bare)] at due
      exact congrArg Host.Outcome.next due
  · intro s waiting early reached marked
    have due : unwindBlocked s = _ := if_pos ⟨waiting, early, reached⟩
    have factor : (if s.yaw.unwindMark then s.yaw.saved else s.yaw.factor) = s.yaw.saved := if_pos marked
    rw [enterParked, putYaw, Yaw.unwindLeft, raise_yaw, raise_lines, factor] at due
    exact congrArg Host.Outcome.next due
  · exact congrArg Host.Outcome.next ((if_pos ⟨jogging, phase, reached⟩).trans (toStopping_false s))
  · intro v y moves ticks
    have closes {w : State} (timers : yawTimers v = w) : ticks w := by
      subst timers
      rfl
    refine ⟨fun releasing => ?_, fun slewing => ?_, fun stopping => ?_, fun braking => ?_, ?_, fun rests => ?_⟩
    · exact closes (yawTimers_release v ((inRelease_iff y).2 releasing))
    · exact closes (yawTimers_slew v ((inSlew_iff y).2 slewing))
    · exact closes (yawTimers_stopping v stopping)
    · exact closes (yawTimers_braking v braking)
    · intro waiting permits idle waits
      have condition : idleClose v = true ↔ idle := by
        rw [idleClose_iff, yawPermitted_iff]
        simp only [and_assoc]
        rfl
      have timers := yawTimers_unwindWait v waiting
      refine ⟨fun counts => ?_, fun stops => ?_⟩
      · rw [if_pos (condition.2 counts)] at timers
        exact closes timers
      · rw [if_neg (mt condition.1 stops)] at timers
        exact closes timers
    · exact closes (yawTimers_rest v rests)

end


section
/-! PROOF. The write of twist, TEST_ENTER and TEST_EXIT, and the commands that move the yaw. -/

open Sys2Proof Sys2Proof.Machine

namespace Sys2Proof.Machine

/-! ### The write of twist -/

/-- A signed word lies within the range of twist (R109). -/
theorem clampTwist_toInt (w : Word) : clampTwist w.toInt = w.toInt := by
  have low := w.le_toInt
  have high := w.toInt_lt
  exact clampInt_of_mem (by omega) (by omega)

theorem take_twist (w : Word) : Form.take (.signed (-2147483648) 2147483647) w = some (w.toInt, false) := by
  have kept : clampInt (-2147483648) 2147483647 w.toInt = w.toInt := clampTwist_toInt w
  simp [Form.take, signedOf, kept]

section twist

variable {r : ReqArgs} {s : State} (h : ReachedAt .service r s) (index : r.index = 0)
include h

/-- A moving yaw refuses the write (R111). -/
theorem twistWrite_refused (moving : s.yaw.mode ≠ .parked ∧ s.yaw.mode ≠ .held) : exec (.twistWrite r) s =
    .next (refuse 11 { r with field := 0 } .refusedState s) :=
  congrArg Host.Outcome.next (writeRequest_state (table := 11) (r := { r with field := 0 }) h (by decide)
    (x := service (.signed (-2147483648) 2147483647) .yawRest) rfl
    (by simp [service, When.allows, yawAtRest, moving]))

include index

/-- A yaw at rest takes it (R111). -/
theorem twistWrite_taken (rests : s.yaw.mode = .parked ∨ s.yaw.mode = .held) : exec (.twistWrite r) s =
    .next (prepare (replyTo 11 { r with field := 0 } .ok r.value) (writeTwist r.value.toInt s)) := by
  have written := writeRequest_checked (table := 11) (r := { r with field := 0 }) h (by decide)
    (x := service (.signed (-2147483648) 2147483647) .yawRest) rfl (le_refl _)
    (by simpa [service, When.allows, yawAtRest] using rests) (by decide) (by rw [index]; rfl) (take_twist r.value)
  rw [wordOf_toInt] at written
  exact congrArg Host.Outcome.next written

end twist

/-- The state once twist has been written (R111). -/
def twistSet (z : Int) (s : State) : State :=
  { s with yaw := { s.yaw with twist := z, twistKnown := true } }

theorem writeTwist_toInt (w : Word) (s : State) : writeTwist w.toInt s =
    if ¬ s.yawCfg.twistHard ≤ s.yaw.twist.natAbs ∧ s.yawCfg.twistHard ≤ w.toInt.natAbs then
      hardCrossing (twistSet w.toInt s) else twistSet w.toInt s := by
  simp [writeTwist, clampTwist_toInt, hardCheck, hardTwist, twistSet]

theorem crossed_reason (twist : Int) (s : State) : (crossed twist s).sup.reason = s.sup.reason := by
  show (raise _ _ _ _ s).sup.reason = _
  rw [raise_sup]

/-- The state of a hard-limit crossing once an OPERATING nacelle has been stopped, before the yaw acts (R112, R167). -/
def crossingStopped (s : State) : State :=
  if s.sup.nacelle = .operating then
    holdOnline (putNacelle .stopped (.cause CauseNo.twistHard) (crossed s.yaw.twist s))
  else crossed s.yaw.twist s

theorem crossingStopped_yaw (s : State) : (crossingStopped s).yaw = s.yaw := by
  unfold crossingStopped
  split <;> exact crossed_yaw s.yaw.twist s

/-- A crossing with the yaw at rest leaves it in HELD (R112, R124). -/
theorem hardCrossing_rests (s : State) (rests : s.yaw.mode = .parked ∨ s.yaw.mode = .held) :
    hardCrossing s = yawToHeld (crossingStopped s) := by
  by_cases operating : s.sup.nacelle = .operating
  · have stop : stopDemand (.cause CauseNo.twistHard) (crossed s.yaw.twist s) = yawToHeld (crossingStopped s) := by
      rw [stopDemand_of_operating _ _ ((crossed_nacelle ..).trans operating), crossingStopped, if_pos operating]
      rfl
    show yawAtCrossing (stopDemand _ (crossed s.yaw.twist s)) = _
    rw [stop, yawAtCrossing, yawToHeld_mode]
  · rw [hardCrossing_other s operating, crossingStopped, if_neg operating]
    have yaw := crossed_yaw s.yaw.twist s
    obtain mode | mode := rests
    · simp only [yawAtCrossing, yaw, mode]
    · simp only [yawAtCrossing, yawToHeld, yaw, mode, if_true]

theorem yawToHeld_twistKnown (s : State) : (yawToHeld s).yaw.twistKnown = s.yaw.twistKnown := by
  unfold yawToHeld
  split <;> rfl

theorem yawToHeld_stopOut (s : State) : (yawToHeld s).lines.stopOut = s.lines.stopOut := by
  rw [yawToHeld_frame]

/-- What a crossing with the yaw at rest leaves (R112, R167, R172). -/
theorem hardCrossing_rests_spec (s : State) (rests : s.yaw.mode = .parked ∨ s.yaw.mode = .held) :
    let t := hardCrossing s
    t.yaw.twist = s.yaw.twist ∧ t.yaw.twistKnown = s.yaw.twistKnown ∧ t.yaw.mode = .held ∧
      t.causes[CauseNo.twistHard].pending = true ∧ t.sup.mode.yawAuto = false ∧
      (s.sup.nacelle = .operating → t.sup.nacelle = .stopped ∧ t.sup.reason = .cause CauseNo.twistHard ∧
        t.lines.stopOut = true) ∧
      (s.sup.nacelle ≠ .operating → t.sup.nacelle = s.sup.nacelle ∧ t.sup.reason = s.sup.reason) := by
  have yaw := crossingStopped_yaw s
  have pending : (crossed s.yaw.twist s).causes[CauseNo.twistHard].pending = true := raise_pending_self ..
  rw [hardCrossing_rests s rests]
  refine ⟨?_, ?_, yawToHeld_mode _, ?_, ?_, fun operating => ?_, fun other => ?_⟩
  · rw [yawToHeld_twist, yaw]
  · rw [yawToHeld_twistKnown, yaw]
  · rw [yawToHeld_causes, crossingStopped]
    split <;> exact pending
  · rw [yawToHeld_sup, crossingStopped]
    split <;> rfl
  · rw [yawToHeld_sup, yawToHeld_stopOut, crossingStopped, if_pos operating]
    exact ⟨rfl, rfl, rfl⟩
  · rw [yawToHeld_sup, crossingStopped, if_neg other]
    exact ⟨crossed_nacelle .., crossed_reason ..⟩

/-! ### TEST -/

/-- What a force that is released leaves of its channel (R170). -/
def forceReleased (x : Channel) : Channel :=
  { x with forced := false, state := .stale, quiet := 0 }

section release

variable (ch : Fin 128) (s : State)

/-- The release of a force leaves every other channel (R170). -/
theorem releaseForce_channels (d : Fin 128) : (releaseForce ch s).channels[d] =
    if d = ch ∧ s.channels[d].forced = true then forceReleased s.channels[d] else s.channels[d] := by
  by_cases forced : s.channels[ch].forced = true
  · obtain ⟨kept, -⟩ := makeStale_spec ch 0 { s.channels[ch] with forced := false, quiet := 0 } s
    rw [show releaseForce ch s = _ from if_pos forced, kept.channels]
    by_cases same : d = ch
    · subst same
      rw [if_pos ⟨rfl, forced⟩]
      exact State.setChannel_at s d _
    · rw [if_neg fun both => same both.1]
      exact State.setChannel_at_ne s ch d _ same
  · rw [show releaseForce ch s = s from if_neg forced]
    refine (if_neg ?_).symm
    rintro ⟨rfl, was⟩
    exact forced was

/-- It demands no stop, and the ring has no part in it. -/
theorem releaseForce_ring_sup : (releaseForce ch s).ring = s.ring ∧ (releaseForce ch s).sup = s.sup := by
  refine ⟨(BlockKept.releaseForce ch s).ring, ?_⟩
  unfold releaseForce
  split
  · exact (makeStale_sup ..).1
  · rfl

end release

/-- Forces released one after another: each channel of the list is released if it was forced. -/
theorem foldl_releaseForce (l : List (Fin 128)) (s : State) :
    let t := l.foldl (fun t ch => releaseForce ch t) s
    t.ring = s.ring ∧ t.sup = s.sup ∧ ∀ d : Fin 128, t.channels[d] =
      if d ∈ l ∧ s.channels[d].forced = true then forceReleased s.channels[d] else s.channels[d] := by
  induction l generalizing s with
  | nil => exact ⟨rfl, rfl, fun d => by simp⟩
  | cons ch l ih =>
    obtain ⟨ring, sup, channels⟩ := ih (releaseForce ch s)
    obtain ⟨ring', sup'⟩ := releaseForce_ring_sup ch s
    refine ⟨ring.trans ring', sup.trans sup', fun d => (channels d).trans ?_⟩
    rw [releaseForce_channels]
    by_cases first : d = ch ∧ s.channels[d].forced = true
    · have once : ¬ (d ∈ l ∧ (forceReleased s.channels[d]).forced = true) := fun again => Bool.noConfusion again.2
      rw [if_pos first, if_neg once, if_pos ⟨first.1 ▸ List.mem_cons_self, first.2⟩]
    · simp only [if_neg first, List.mem_cons, or_and_right, or_iff_right first]

/-- Every force is released, whatever the order (R169). -/
theorem releaseForces_spec (s : State) :
    let t := inOpenOrder (forcedSet s) releaseForce s
    t.ring = s.ring ∧ t.sup = s.sup ∧ ∀ ch : Fin 128, t.channels[ch] =
      if s.channels[ch].forced then forceReleased s.channels[ch] else s.channels[ch] := by
  obtain ⟨order, choices, choiceNo, perm, taken⟩ := inOpenOrder_eq_foldl (forcedSet s) releaseForce s
  obtain ⟨ring, sup, channels⟩ := foldl_releaseForce order { s with choices := choices, choiceNo := choiceNo }
  rw [taken]
  refine ⟨ring, sup, fun ch => (channels ch).trans ?_⟩
  have listed : ch ∈ order ↔ s.channels[ch].forced = true := by
    rw [perm.mem_iff]
    simp [-Fin.getElem_fin, forcedSet, allIdx]
  simp only [listed, and_self]

/-- What TEST_ENTER leaves (R124, R169, R173). -/
theorem enterTest_spec (s : State) :
    let t := enterTest s
    t.sup = { s.sup with nacelle := .test, reason := .none } ∧ t.causes[CauseNo.testActive].pending = true ∧
      t.yaw.mode = .held ∧ t.yaw.twist = s.yaw.twist ∧ t.lines.stopOut = true ∧ t.channels = s.channels ∧
      t.sects = s.sects ∧ t.ring = s.ring := by
  intro t
  have held : t = yawToHeld (raise CauseNo.testActive .test .none none (putNacelle .test .none s)) := rfl
  rw [held]
  refine ⟨by simp, ?_, yawToHeld_mode _, by simp [yawToHeld_stopOut]⟩
  rw [yawToHeld_causes]
  exact raise_pending_self ..

/-- The two checks of TEST_ENTER (R169). -/
theorem testEnterChecks_conditions (s : State) : List.Forall₂ (fun b p => b = true ↔ p) (testEnterChecks s)
    [s.sup.nacelle = .loading ∨ s.sup.nacelle = .stopped, s.yaw.mode = .parked ∨ s.yaw.mode = .held] :=
  .cons (by simp) (.cons (by simp [yawAtRest]) .nil)

/-! ### Checks of the yaw commands -/

/-- Permission condition 1, spelled out (R116). -/
theorem nacellePermits_iff (s : State) : nacellePermits s = true ↔
    s.sup.nacelle = .operating ∨ s.sup.nacelle = .stopped ∧ s.sup.reason ≠ .cause CauseNo.ringBreak ∧
      ∀ c, s.sup.reason = .cause c → c.val / 16 ≠ 3 := by
  simp only [nacellePermits, Bool.or_eq_true, Bool.and_eq_true, decide_eq_true_eq, Bool.not_eq_true',
    barsYaw_eq_false_iff]

theorem yawHoldStands_iff (s : State) : yawHoldStands s = true ↔ ∃ i : Fin 96,
    s.limits[i].enable = true ∧ s.limits[i].level = .trip ∧ s.limits[i].action = .yawHold := by
  simp only [yawHoldStands, Bool.not_eq_true', List.isEmpty_eq_false_iff_exists_mem, mem_tripped]

/-- The four conditions of permission, each as a check of its own (R116). -/
def permissionConditions (s : State) : List Prop :=
  [s.sup.nacelle = .operating ∨ s.sup.nacelle = .stopped ∧ s.sup.reason ≠ .cause CauseNo.ringBreak ∧
      ∀ c, s.sup.reason = .cause c → c.val / 16 ≠ 3,
    s.ring.broken = false, s.yaw.twistKnown = true, s.channels[s.yawCfg.heading].state = .live]

/-- They stand in the checks of each command that moves the yaw, before its last (R124, R125, R128). -/
theorem permission_conditions (s : State) {last : Bool} {p : Prop} (same : last = true ↔ p) :
    List.Forall₂ (fun b p => b = true ↔ p)
      [nacellePermits s, !s.ring.broken, s.yaw.twistKnown, usable s s.yawCfg.heading, last]
      (permissionConditions s ++ [p]) :=
  .cons (nacellePermits_iff s) (.cons (Bool.not_eq_true' _ ▸ Iff.rfl) (.cons Iff.rfl
    (.cons decide_eq_true_iff (.cons same .nil))))

theorem resumeChecks_conditions (s : State) : List.Forall₂ (fun b p => b = true ↔ p) (resumeChecks s)
    ((s.yaw.mode = .held) :: permissionConditions s ++ [¬ ∃ i : Fin 96,
      s.limits[i].enable = true ∧ s.limits[i].level = .trip ∧ s.limits[i].action = .yawHold]) :=
  .cons decide_eq_true_iff (permission_conditions s (Bool.not_iff_not.trans (not_congr (yawHoldStands_iff s))))

theorem unwindChecks_conditions (s : State) : List.Forall₂ (fun b p => b = true ↔ p) (unwindChecks s)
    ((s.yaw.mode = .parked) :: permissionConditions s ++ [s.yawCfg.unwindTarget < s.yaw.twist.natAbs]) :=
  .cons decide_eq_true_iff (permission_conditions s decide_eq_true_iff)

theorem jogChecks_conditions (d : Turn) (s : State) : List.Forall₂ (fun b p => b = true ↔ p) (jogChecks d s)
    ((s.yaw.mode = .parked) :: (s.sup.mode.yawAuto = false) :: permissionConditions s ++
      [¬ (s.yawCfg.twistHard ≤ s.yaw.twist.natAbs ∧
        (d = .cw ∧ 0 ≤ s.yaw.twist ∨ d = .ccw ∧ s.yaw.twist ≤ 0))]) :=
  .cons decide_eq_true_iff (.cons (Bool.not_eq_true' _ ▸ Iff.rfl) (permission_conditions s
    (Bool.not_iff_not.trans (not_congr (by rw [Bool.and_eq_true, increasesTwist_iff, hardTwist, decide_eq_true_iff])))))

/-- A command whose checks are the conditions given is taken when all hold, and refused with the number of the first
that does not (R184). -/
theorem commandRequest_conditions {l : Authority} {no : Octet} {r : ReqArgs} {s : State} (c : Command)
    (h : ReachedAt l r s) (level : c.level.rank ≤ l.rank) (index : c.indexOk = true) (value : c.valueOk = true)
    {checks : List Bool} (refusal : c.refusal s = firstFailing checks) {conditions : List Prop}
    (same : List.Forall₂ (fun b p => b = true ↔ p) checks conditions) :
    ((∀ p ∈ conditions, p) → inFollowing (commandRequest no c r) s =
      prepare (replyTo no r (if c.clamped then .adjusted else .ok) c.used) (c.effect s)) ∧
    ∀ (k : Nat) (n : Fin k), (∀ m : Fin k, m < n → conditions.getD m.val True) → ¬ conditions.getD n.val True →
      inFollowing (commandRequest no c r) s =
        prepare (replyTo no r .refusedState (BitVec.ofNat 32 (n.val + 1))) s := by
  obtain ⟨all, first⟩ := firstFailing_of_conditions same
  exact ⟨fun holds => commandRequest_taken c h level index value (refusal.trans (all holds)),
    fun k n before fails => commandRequest_refused c h level index value (refusal.trans
      (first n (fun m early => before ⟨m, early.trans n.isLt⟩ early) fails))⟩

end Sys2Proof.Machine

/-- Settles O44: a write crosses the hard limit when the limit did not hold before and holds with the value written. -/
theorem twistWriteSetsTwist : Obligations.TwistWriteSetsTwist := by
  intro r s h index reply hard
  have replies (st : Status) : replyTo 11 { r with field := 0 } st r.value = reply st := by
    rw [replyTo, index]
  refine ⟨fun unparked unheld => ?_, fun rests => ⟨fun uncrossed => ?_, fun free far => ?_⟩⟩
  · rw [twistWrite_refused h ⟨unparked, unheld⟩, refuse, replies]
    rfl
  · have stays : ¬ (¬ hard s.yaw.twist ∧ hard r.value.toInt) := by
      tauto
    rw [twistWrite_taken h index rests, writeTwist_toInt, if_neg stays, replies]
    rfl
  · obtain ⟨twist, known, held, pending, auto, stops, stays⟩ := hardCrossing_rests_spec (twistSet r.value.toInt s) rests
    rw [twistWrite_taken h index rests, writeTwist_toInt, if_pos ⟨free, far⟩, replies]
    exact ⟨_, rfl, twist, known, held, pending, auto, rfl, stops, stays⟩

/-- Settles O51: the release of the forces reaches each forced channel, whatever its order. -/
theorem testEnterAndExit : Obligations.TestEnterAndExit := by
  intro r s h reply waiting rest
  obtain ⟨enters, refused⟩ := commandRequest_conditions (no := 4) testEnterCommand h (le_refl _) rfl rfl rfl
    (testEnterChecks_conditions s)
  have exitCheck : testExitCommand.refusal s = _ := testCheck_eq s
  refine ⟨fun waits rests => ?_, fun busy => ?_, fun waits moves => ?_, fun test => ?_, fun other => ?_⟩
  · have both : ∀ p ∈ [waiting, rest], p := List.forall_mem_cons.2 ⟨waits, List.forall_mem_singleton.2 rests⟩
    exact ⟨_, congrArg Host.Outcome.next (enters both), rfl, enterTest_spec s⟩
  · exact congrArg Host.Outcome.next (refused 2 0 (by simp) busy)
  · exact congrArg Host.Outcome.next (refused 2 1 (by simpa using waits) moves)
  · obtain ⟨ring, sup, channels⟩ := releaseForces_spec s
    have taken := commandRequest_taken (no := 5) testExitCommand h (le_refl _) rfl rfl
      (exitCheck.trans (if_neg (not_not.2 test)))
    refine ⟨_, congrArg Host.Outcome.next taken, rfl, ?_, rfl, rfl, rfl, ring, channels⟩
    show { (inOpenOrder (forcedSet s) releaseForce s).sup with nacelle := .stopped, reason := .management } = _
    rw [sup]
  · exact congrArg Host.Outcome.next (commandRequest_refused (no := 5) testExitCommand h (le_refl _) rfl rfl
      (exitCheck.trans (if_pos other)))

/-- Settles O53: the four conditions of permission are checks of all three commands. -/
theorem yawCommandsMoveState : Obligations.YawCommandsMoveState := by
  intro r s reply permits held ready refuses
  constructor
  · intro h resume unwind
    obtain ⟨resumes, resumeFails⟩ := commandRequest_conditions (no := 8) yawResumeCommand h (le_refl _) rfl rfl rfl
      (resumeChecks_conditions s)
    obtain ⟨unwinds, unwindFails⟩ := commandRequest_conditions (no := 9) yawUnwindCommand h (le_refl _) rfl rfl rfl
      (unwindChecks_conditions s)
    exact ⟨fun holds => congrArg Host.Outcome.next (resumes holds),
      fun n before fails => congrArg Host.Outcome.next (resumeFails 7 n before fails),
      fun holds => congrArg Host.Outcome.next (unwinds holds),
      fun n before fails => congrArg Host.Outcome.next (unwindFails 7 n before fails)⟩
  · intro h direction n d jog
    obtain ⟨jogs, jogFails⟩ := commandRequest_conditions (no := 10) (yawJogCommand r) h (le_refl _) rfl
      (by simpa [yawJogCommand] using direction) rfl (jogChecks_conditions d s)
    refine ⟨fun holds => congrArg Host.Outcome.next ((jogs holds).trans ?_),
      fun n before fails => congrArg Host.Outcome.next (jogFails 7 n before fails)⟩
    have status : (if (yawJogCommand r).clamped then Status.adjusted else .ok) =
        if n = r.value.toNat then .ok else .adjusted := by
      simp only [yawJogCommand, decide_eq_true_iff, ite_not]
      rfl
    rw [status]
    rfl

end


section
/-! PROOF. The pumps: a failure, the writes of present and of state, and the pump work of a close. -/

open Sys2Proof Sys2Proof.Machine

namespace Sys2Proof.Machine

/-! ### A pump follows its commanded flag (R136) -/

section command

variable (on : Bool) {p : Pump}

theorem commandPump_of_off (off : p.state = .off) : commandPump on p =
    if on then { p with commanded := true, state := .starting, startCount := 0 }
    else { p with commanded := false } := by
  cases on <;> simp [commandPump, off]

theorem commandPump_of_starting (starting : p.state = .starting) : commandPump on p =
    if on then { p with commanded := true } else { p with commanded := false, state := .off, startCount := 0 } := by
  cases on <;> simp [commandPump, starting]

theorem commandPump_of_running (running : p.state = .running) : commandPump on p =
    if on then { p with commanded := true } else { p with commanded := false, state := .off, lowCount := 0 } := by
  cases on <;> simp [commandPump, running]

theorem commandPump_of_failed (failed : p.state = .failed) : commandPump on p = { p with commanded := on } := by
  cases on <;> simp [commandPump, failed]

/-- A cleared pump starts when it is called for and stays OFF otherwise, its counts at 0 (R136, R148). -/
theorem commandPump_cleared (off : p.state = .off) (starts : p.startCount = 0) :
    (commandPump on p).state = (if on then .starting else .off) ∧ (commandPump on p).startCount = 0 ∧
      (commandPump on p).lowCount = p.lowCount := by
  rw [commandPump_of_off on off]
  cases on
  · exact ⟨off, starts, rfl⟩
  · exact ⟨rfl, rfl, rfl⟩

end command

/-! ### The order list and the commanded flags (R135, R136) -/

section reorder

variable (s : State) (k : Fin 3)

theorem reorderPumps_commanded : (reorderPumps s).pumps[k].commanded =
    decide (k ∈ (rebuiltOrder s).take s.cool.required) := by
  rw [reorderPumps_pump, commandPump_commanded]

/-- A FAILED pump is never commanded ON (R136). -/
theorem reorderPumps_failed (failed : s.pumps[k].state = .failed) :
    decide (k ∈ (rebuiltOrder s).take s.cool.required) = false ∧
      (reorderPumps s).pumps[k] = { s.pumps[k] with commanded := false } := by
  have off : decide (k ∈ (rebuiltOrder s).take s.cool.required) = false :=
    decide_eq_false fun called => ((mem_rebuiltOrder s k).1 (List.mem_of_mem_take called)).2 failed
  refine ⟨off, ?_⟩
  rw [reorderPumps_pump, off, commandPump_of_failed false failed]

/-- The list that was rebuilt holds the eligible pumps as the commanded flags have left them (R135). -/
theorem mem_order_reorderPumps : k ∈ (reorderPumps s).cool.order ↔
    (reorderPumps s).pumps[k].present = true ∧ (reorderPumps s).pumps[k].state ≠ .failed := by
  obtain ⟨present, -⟩ := commandPump_rest (decide (k ∈ (rebuiltOrder s).take s.cool.required)) s.pumps[k]
  rw [reorderPumps_order, mem_rebuiltOrder, reorderPumps_pump, present, Ne, Ne, commandPump_failed]

/-- Never more pumps are commanded ON than required (R136). -/
theorem reorderPumps_commanded_le :
    ((List.finRange 3).filter fun k => (reorderPumps s).pumps[k].commanded).length ≤ s.cool.required := by
  have distinct := (List.nodup_finRange 3).filter fun k => (reorderPumps s).pumps[k].commanded
  have called : ((List.finRange 3).filter fun k => (reorderPumps s).pumps[k].commanded) ⊆
      (rebuiltOrder s).take s.cool.required := by
    intro k commanded
    have on := (List.mem_filter.1 commanded).2
    rwa [reorderPumps_commanded, decide_eq_true_iff] at on
  exact (distinct.subperm called).length_le.trans (List.length_take_le ..)

end reorder

/-! ### The pumps put in order and settled (R136, R138, R140) -/

section settled

variable (s : State) (k : Fin 3)

@[simp] theorem shortTest_pumps : (shortTest s).pumps = s.pumps := by rw [shortTest_frame]

@[simp] theorem shortTest_cool : (shortTest s).cool = s.cool := by rw [shortTest_frame]

/-- PUMPS_SHORT that is pending adds nothing (R138, R152). -/
theorem shortTest_of_pending (pending : s.causes[CauseNo.pumpsShort].pending = true) : shortTest s = s := by
  unfold shortTest
  split
  · exact raise_of_pending _ _ _ _ s pending
  · rfl

@[simp] theorem pumpsAfterWrite_pumps : (pumpsAfterWrite s).pumps = (reorderPumps s).pumps :=
  shortTest_pumps (reorderPumps s)

@[simp] theorem pumpsAfterWrite_order : (pumpsAfterWrite s).cool.order = rebuiltOrder s :=
  congrArg Cool.order (shortTest_cool (reorderPumps s))

@[simp] theorem pumpsAfterWrite_required : (pumpsAfterWrite s).cool.required = s.cool.required :=
  (congrArg Cool.required (shortTest_cool (reorderPumps s)) :)

theorem pumpsAfterWrite_frame : pumpsAfterWrite s =
    { s with
      pumps := (pumpsAfterWrite s).pumps, cool := (pumpsAfterWrite s).cool
      causes := (pumpsAfterWrite s).causes, reports := (pumpsAfterWrite s).reports } := by
  unfold pumpsAfterWrite formFactor
  rw [shortTest_frame, reorderPumps_frame]

theorem pumpsAfterWrite_reports (pending : s.causes[CauseNo.pumpsShort].pending = true) :
    (pumpsAfterWrite s).reports = s.reports :=
  (congrArg State.reports (shortTest_of_pending (reorderPumps s) pending) :)

/-- The order list and the commanded flags agree with the pumps as they have been settled (R135, R136). -/
theorem pumpsAfterWrite_order_commanded : (k ∈ (pumpsAfterWrite s).cool.order ↔
      (pumpsAfterWrite s).pumps[k].present = true ∧ (pumpsAfterWrite s).pumps[k].state ≠ .failed) ∧
    (pumpsAfterWrite s).pumps[k].commanded = decide (k ∈ (pumpsAfterWrite s).cool.order.take s.cool.required) := by
  rw [pumpsAfterWrite_pumps, pumpsAfterWrite_order]
  exact ⟨mem_order_reorderPumps s k, reorderPumps_commanded s k⟩

end settled

/-! ### A pump fails (R137, R138) -/

section failure

variable {s : State} {k : Fin 3} {how : PumpFailure}

theorem recordOwed_iff : recordOwed k s = true ↔ s.causes[CauseNo.pumpFail].pending = true ∧
    s.pumps[k].cleared = true ∧ ∀ j : Fin 3, j ≠ k → s.pumps[j].present = true → s.pumps[j].state ≠ .failed := by
  simp [-Fin.getElem_fin, recordOwed, noOtherFailed, someIdx, and_assoc]

theorem raisePumpFail_owed (owed : recordOwed k s = true) : raisePumpFail k how s = addPumpRecord k how s :=
  if_pos owed

theorem raisePumpFail_plain (plain : ¬ recordOwed k s = true) : raisePumpFail k how s =
    raise CauseNo.pumpFail .none (.pump k) (some (pumpFailValue how)) s :=
  if_neg plain

/-- The record of a cleared pump goes last into a queue with room (R148, R159). -/
theorem addPumpRecord_filed (enabled : s.causes[CauseNo.pumpFail].reportEnable = true)
    (room : s.reports.queue.length < Config.queueCapacity) : (addPumpRecord k how s).reports.queue =
      s.reports.queue ++ [{ cause := CauseNo.pumpFail, stamp := s.ring.extCount, action := .none, subject := .pump k
                            value := some (pumpFailValue how) }] := by
  rw [addPumpRecord, if_pos enabled, fileRecord, if_pos room]

/-- A pump that has failed, commanded OFF. -/
def pumpFailed (how : PumpFailure) (p : Pump) : Pump :=
  { p with state := .failed, commanded := false, failure := how, cleared := false }

/-- The state of a failure before the list is rebuilt: its cause and records, and the pump FAILED (R137, R138). -/
def pumpFailing (k : Fin 3) (how : PumpFailure) (s : State) : State :=
  (raisePumpFail k how s).setPump k (pumpFailed how s.pumps[k])

theorem failPump_eq : failPump k how s = reorderPumps (pumpFailing k how s) := rfl

theorem pumpFailing_eq : pumpFailing k how s =
    { raisePumpFail k how s with pumps := s.pumps.set k (pumpFailed how s.pumps[k]) } := by
  rw [pumpFailing, State.setPump, raisePumpFail_frame]

theorem pumpFailing_failed : (pumpFailing k how s).pumps[k] = pumpFailed how s.pumps[k] :=
  State.setPump_at ..

/-- A failed pump is put out of the list and stays as its failure has left it (R136). -/
theorem failPump_pump : (failPump k how s).pumps[k] = pumpFailed how s.pumps[k] := by
  have failed : (pumpFailing k how s).pumps[k].state = .failed := by rw [pumpFailing_failed]; rfl
  rw [failPump_eq, (reorderPumps_failed _ k failed).2, pumpFailing_failed]
  rfl

/-- A failure of a pump that had not FAILED is settled: PUMPS_SHORT is judged and F_c formed (R138, R140). -/
theorem pumpsSettled_failPump {f : State → State} (fails : f s = failPump k how s)
    (unfailed : s.pumps[k].state ≠ .failed) : pumpsSettled f s = pumpsAfterWrite (pumpFailing k how s) := by
  have moved : (f s).pumps ≠ s.pumps := by
    rw [fails]
    intro same
    rw [← same, failPump_pump] at unfailed
    exact unfailed rfl
  rw [pumpsSettled, if_neg moved, fails]
  rfl

theorem pumpFailing_pending (c : Fin 128) (pending : s.causes[c].pending = true) :
    (pumpFailing k how s).causes[c].pending = true :=
  (BlockKept.raisePumpFail k how s).mono c pending

theorem pumpFailing_frame : pumpFailing k how s =
    { s with
      pumps := s.pumps.set k (pumpFailed how s.pumps[k])
      causes := (raisePumpFail k how s).causes, reports := (raisePumpFail k how s).reports } := by
  rw [pumpFailing_eq, raisePumpFail_frame]

theorem pumpFailing_settled_frame : pumpsAfterWrite (pumpFailing k how s) =
    { s with
      pumps := (pumpsAfterWrite (pumpFailing k how s)).pumps, cool := (pumpsAfterWrite (pumpFailing k how s)).cool
      causes := (pumpsAfterWrite (pumpFailing k how s)).causes
      reports := (pumpsAfterWrite (pumpFailing k how s)).reports } := by
  have frame := pumpsAfterWrite_frame (pumpFailing k how s)
  rw [pumpFailing_frame] at frame ⊢
  exact frame

theorem pumpFailing_required : (pumpFailing k how s).cool.required = s.cool.required := by
  rw [pumpFailing_frame]

/-- PUMP_FAIL is pending once the failure has been settled (R138). -/
theorem pumpFailing_settled_pending :
    (pumpsAfterWrite (pumpFailing k how s)).causes[CauseNo.pumpFail].pending = true :=
  (BlockKept.pumpsAfterWrite (pumpFailing k how s)).mono CauseNo.pumpFail (raisePumpFail_pending k how s)

/-- With PUMPS_SHORT pending the failure's own record is the only one (R138, R152). -/
theorem pumpFailing_settled_reports (short : s.causes[CauseNo.pumpsShort].pending = true) :
    (pumpsAfterWrite (pumpFailing k how s)).reports = (raisePumpFail k how s).reports :=
  pumpsAfterWrite_reports _ (pumpFailing_pending _ short)

end failure

/-! ### Writes of present and of state (R148) -/

section written

variable {r : ReqArgs} {s : State} {k : Fin 3}

/-- A pump that a write has cleared, with the present flag and the mark of its clearing (R148). -/
def pumpRewritten (on mark : Bool) (p : Pump) : Pump :=
  { pumpCleared p with present := on, cleared := mark }

theorem writePumpPresent_changed {on : Bool} (changed : s.pumps[k].present ≠ on) :
    writePumpPresent k on s = pumpsAfterWrite (s.setPump k (pumpRewritten on false s.pumps[k])) :=
  if_neg changed.symm

theorem clearFailedPump_failed (failed : s.pumps[k].state = .failed) : clearFailedPump k s =
    pumpsAfterWrite (s.setPump k (pumpRewritten s.pumps[k].present true s.pumps[k])) :=
  if_pos failed

/-- A cleared pump is STARTING when it is called for and OFF otherwise, with its counts and failure cleared (R148). -/
theorem pumpsAfterWrite_rewritten (on mark : Bool) :
    let p := (pumpsAfterWrite (s.setPump k (pumpRewritten on mark s.pumps[k]))).pumps[k]
    p.present = on ∧ p.state = (if p.commanded then .starting else .off) ∧ p.startCount = 0 ∧ p.lowCount = 0 ∧
      p.minuteCount = 0 ∧ p.failure = .none := by
  intro p
  let called := decide (k ∈ (rebuiltOrder (s.setPump k (pumpRewritten on mark s.pumps[k]))).take s.cool.required)
  have settled : p = commandPump called (pumpRewritten on mark s.pumps[k]) := by
    show (pumpsAfterWrite _).pumps[k] = _
    rw [pumpsAfterWrite_pumps, reorderPumps_pump, State.setPump_at, State.setPump_cool]
  obtain ⟨state, starts, low⟩ := commandPump_cleared called (p := pumpRewritten on mark s.pumps[k]) rfl rfl
  obtain ⟨present, -, -, minutes, failure⟩ := commandPump_rest called (pumpRewritten on mark s.pumps[k])
  rw [settled, commandPump_commanded]
  exact ⟨present, state, starts, low, minutes, failure⟩

/-- Outside OPERATING a write of present is taken (R148). -/
theorem pumpPresentWrite_taken (h : ReachedAt .service r s) (index : r.index.toNat = k.val)
    (idle : s.sup.nacelle ≠ .operating) (flag : r.value.toNat < 2) : exec (.pumpPresentWrite r) s =
      .next (prepare (replyTo 13 { r with field := 0 } .ok r.value)
        (writePumpPresent k (decide (r.value = 1)) s)) := by
  have written := writeRequest_checked (table := 13) (r := { r with field := 0 }) h (by decide)
    (x := service flagForm .notOperating) rfl (le_refl _) (by simpa [service, When.allows] using idle) (by decide)
    (by simp [indexTaken, tableSize, index]) (take_flag r.value flag)
  rw [show applyWrite _ _ _ _ _ = some (writePumpPresent (Fin.ofNat 3 r.index.toNat) (flagOf r.value.toNat) s) from rfl,
    fin_ofNat_of_eq k _ index, flagOf_eq r.value flag, wordOf_toNat] at written
  exact congrArg Host.Outcome.next written

/-- A write of state OFF is taken in every state of the nacelle (R148). -/
theorem pumpStateWrite_taken (h : ReachedAt .service r s) (index : r.index.toNat = k.val) (off : r.value = 0) :
    exec (.pumpStateWrite r) s =
      .next (prepare (replyTo 13 { r with field := 3 } .ok r.value) (clearFailedPump k s)) := by
  have take : Form.take (.enumerated 1) r.value = some ((r.value.toNat : Int), false) := by
    simp [Form.take, off]
  have written := writeRequest_checked (table := 13) (r := { r with field := 3 }) h (by decide)
    (x := service (.enumerated 1) .always) rfl (le_refl _) rfl (by decide)
    (by simp [indexTaken, tableSize, index]) take
  rw [show applyWrite _ _ _ _ _ = some (clearFailedPump (Fin.ofNat 3 r.index.toNat) s) from rfl,
    fin_ofNat_of_eq k _ index, wordOf_toNat] at written
  exact congrArg Host.Outcome.next written

end written

/-! ### The pump work of a close (R134, R137 to R140) -/

theorem chanValue_of_live {s : State} {ch : Fin 128} (live : s.channels[ch].state = .live) :
    chanValue s ch = some s.channels[ch].value :=
  if_pos (decide_eq_true live)

theorem chanValue_of_not_live {s : State} {ch : Fin 128} (lost : s.channels[ch].state ≠ .live) :
    chanValue s ch = none :=
  if_neg (mt of_decide_eq_true lost)

section close

variable (s : State) (k : Fin 3)

/-- A pump has flow from a LIVE flow channel at or above flow_ok alone (R132). -/
theorem hasFlow_eq : hasFlow s k = (decide (s.channels[s.pumps[k].flowChannel].state = .live) &&
    decide ((s.coolCfg.flowOk : Int) ≤ s.channels[s.pumps[k].flowChannel].value)) := by
  by_cases live : s.channels[s.pumps[k].flowChannel].state = .live
  · rw [hasFlow, chanValue_of_live live, decide_eq_true live, Bool.true_and]
  · rw [hasFlow, chanValue_of_not_live live, decide_eq_false live, Bool.false_and]

/-- A STARTING pump put into the state fails when its start count has reached pump_start (R137). -/
theorem pumpStartFail_setPump {p : Pump} (starting : p.state = .starting) : pumpStartFail k (s.setPump k p) =
    if s.coolCfg.pumpStart ≤ p.startCount then failPump k .start (s.setPump k p) else s.setPump k p := by
  rw [pumpStartFail, State.setPump_at]
  simp only [starting, true_and, State.setPump_coolCfg]

/-- A RUNNING pump put into the state fails when its low count has reached pump_persist (R138). -/
theorem pumpFlowFail_setPump {p : Pump} (running : p.state = .running) : pumpFlowFail k (s.setPump k p) =
    if s.coolCfg.pumpPersist ≤ p.lowCount then failPump k .flow (s.setPump k p) else s.setPump k p := by
  rw [pumpFlowFail, State.setPump_at]
  simp only [running, true_and, State.setPump_coolCfg]

theorem judgeStarting_eq : judgeStarting k s =
    if s.pumps[k].state ≠ .starting then s
    else if hasFlow s k then s.setPump k { s.pumps[k] with state := .running, lowCount := 0, cleared := false }
    else
      let w := s.setPump k { s.pumps[k] with startCount := s.pumps[k].startCount + 1 }
      if s.coolCfg.pumpStart ≤ s.pumps[k].startCount + 1 then failPump k .start w else w := by
  by_cases starting : s.pumps[k].state = .starting
  · have counted :=
      pumpStartFail_setPump s k (p := { s.pumps[k] with startCount := s.pumps[k].startCount + 1 }) starting
    rw [judgeStarting, counted]
  · rw [judgeStarting, if_pos starting, if_pos starting]

theorem judgeRunning_eq : judgeRunning k s =
    if s.pumps[k].state ≠ .running then s
    else if hasFlow s k then s.setPump k { s.pumps[k] with lowCount := 0 }
    else
      let w := s.setPump k { s.pumps[k] with lowCount := s.pumps[k].lowCount + 1 }
      if s.coolCfg.pumpPersist ≤ s.pumps[k].lowCount + 1 then failPump k .flow w else w := by
  by_cases running : s.pumps[k].state = .running
  · have counted :=
      pumpFlowFail_setPump s k (p := { s.pumps[k] with lowCount := s.pumps[k].lowCount + 1 }) running
    rw [judgeRunning, counted]
  · rw [judgeRunning, if_pos running, if_pos running]

theorem requiredNow_eq : requiredNow s =
    let answer := (evalCurve s.curves[CurveNo.pumpDemand] (requestFraction s)).getD 3
    if s.sup.nacelle = .loading then 0 else if s.sup.nacelle = .operating then max answer 1 else answer := by
  cases nacelle : s.sup.nacelle <;> simp [requiredNow, nacelle]

/-- The pump work of a close with its two open orders named (log 2). -/
theorem pumpsAtClose_eq : ∃ (a b : List (Fin 3)) (c₁ c₂ : List Nat) (n₁ n₂ : Nat),
    a.Perm ((List.finRange 3).filter fun k =>
      s.pumps[k].state = .starting && (requiredAtClose s).pumps[k].state = .starting) ∧
    b.Perm ((List.finRange 3).filter fun k => s.pumps[k].state = .running) ∧
    let begun := a.foldl (fun t k => judgeStarting k t) { requiredAtClose s with choices := c₁, choiceNo := n₁ }
    let judged := b.foldl (fun t k => judgeRunning k t) { begun with choices := c₂, choiceNo := n₂ }
    pumpsAtClose s = formFactor ((List.finRange 3).foldl (fun t k => minuteTick k t) (shortTest judged)) := by
  obtain ⟨a, c₁, n₁, starting, begins⟩ := inOpenOrder_eq_foldl
    (allIdx fun k : Fin 3 => s.pumps[k].state = .starting && (requiredAtClose s).pumps[k].state = .starting)
    judgeStarting (requiredAtClose s)
  obtain ⟨b, c₂, n₂, running, runs⟩ := inOpenOrder_eq_foldl (allIdx fun k : Fin 3 => s.pumps[k].state = .running)
    judgeRunning (a.foldl (fun t k => judgeStarting k t) { requiredAtClose s with choices := c₁, choiceNo := n₁ })
  refine ⟨a, b, c₁, c₂, n₁, n₂, starting, running, ?_⟩
  rw [pumpsAtClose, begins, runs]

end close

end Sys2Proof.Machine

/-- Settles O32: both failures settle the same state, in which the pump has FAILED and its cause is pending. -/
theorem failedPumpIsReplaced : Obligations.FailedPumpIsReplaced := by
  intro s k present alone value filed running settled failed
  have settles {how : PumpFailure} {f : State → State} (fails : f s = failPump k how s)
      (unfailed : s.pumps[k].state ≠ .failed) : failed how (pumpsSettled f s) := by
    have owed : recordOwed k s = true ↔ s.causes[64].pending = true ∧ s.pumps[k].cleared = true ∧ alone :=
      recordOwed_iff
    rw [pumpsSettled_failPump fails unfailed]
    refine ⟨⟨raisePumpFail k how s, ⟨fun pending cleared only => raisePumpFail_owed (owed.2 ⟨pending, cleared, only⟩),
      fun other => raisePumpFail_plain (mt owed.1 other)⟩, ?_⟩, rfl, ?_, pumpFailing_settled_pending,
      fun j => (pumpsAfterWrite_order_commanded _ j).1, fun j => ?_, ?_, ?_, ?_, pumpFailing_settled_frame⟩
    · rw [failPump_eq, pumpFailing_eq]
      rfl
    · rw [pumpsAfterWrite_pumps]
      exact failPump_pump
    · rw [← pumpFailing_required (k := k) (how := how)]
      exact (pumpsAfterWrite_order_commanded _ j).2
    · rw [pumpsAfterWrite_required, pumpFailing_required]
    · intro pending short other
      rw [pumpFailing_settled_reports short, raisePumpFail_plain (mt owed.1 fun h => other h.2),
        raise_of_pending _ _ _ _ s pending]
    · intro pending short enabled room cleared only
      rw [pumpFailing_settled_reports short, raisePumpFail_owed (owed.2 ⟨pending, cleared, only⟩)]
      exact addPumpRecord_filed enabled room
  refine ⟨fun starting reached => ⟨_, rfl, settles (if_pos ⟨starting, reached⟩) ?_⟩,
    fun runs reached => ⟨_, rfl, settles (if_pos ⟨runs, reached⟩) ?_⟩⟩
  · rw [starting]; decide
  · rw [runs]; decide

/-- Settles O45: both writes that change a pump clear it and settle the pumps anew. -/
theorem pumpWritesRebuildOrder : Obligations.PumpWritesRebuildOrder := by
  intro r s k h index reply rebuilt
  have settles (on mark : Bool) (x : Reply) :
      let t := prepare x (pumpsAfterWrite (s.setPump k (pumpRewritten on mark s.pumps[k])))
      t.pumps[k].present = on ∧ rebuilt t := by
    intro t
    obtain ⟨present, state, starts, low, minutes, failure⟩ := pumpsAfterWrite_rewritten (s := s) (k := k) on mark
    have listed (j : Fin 3) := pumpsAfterWrite_order_commanded (s.setPump k (pumpRewritten on mark s.pumps[k])) j
    have frame := congrArg (prepare x) (pumpsAfterWrite_frame (s.setPump k (pumpRewritten on mark s.pumps[k])))
    exact ⟨present, fun j => (listed j).1, fun j => (listed j).2, state, starts, low, minutes, failure, frame⟩
  refine ⟨fun idle flag => ⟨fun same => ?_, fun changed => ?_⟩, fun off => ⟨fun stands => ?_, fun failed => ?_⟩⟩
  · rw [pumpPresentWrite_taken h index idle flag, writePumpPresent, if_pos same.symm]
    rfl
  · rw [pumpPresentWrite_taken h index idle flag, writePumpPresent_changed changed]
    exact ⟨_, rfl, rfl, settles ..⟩
  · rw [pumpStateWrite_taken h index off, clearFailedPump, if_neg stands]
    rfl
  · rw [pumpStateWrite_taken h index off, clearFailedPump_failed failed]
    exact ⟨_, rfl, rfl, settles ..⟩

/-- Settles O59: the list and the flags are those of a rebuild, and the close judges the pumps in two open orders. -/
theorem pumpsFollowTheOrderList : Obligations.PumpsFollowTheOrderList := by
  refine ⟨fun v => ?_, fun s => ?_⟩
  · intro q answer flows put starts runs minutes running first
    have judges : (fun t k => judgeStarting k t) = starts := by
      funext t k
      rw [judgeStarting_eq, hasFlow_eq]
      rfl
    have persists : (fun t k => judgeRunning k t) = runs := by
      funext t k
      rw [judgeRunning_eq, hasFlow_eq]
      rfl
    have ticks : (fun t k => minuteTick k t) = minutes := rfl
    obtain ⟨a, b, c₁, c₂, n₁, n₂, started, ran, closes⟩ := pumpsAtClose_eq v
    rw [judges, persists, ticks] at closes
    refine ⟨requiredNow_eq v, fun same => if_pos same, a, b, c₁, c₂, n₁, n₂, started, ran, ?_⟩
    intro begun judged short counted
    show pumpsAtClose v = formFactor counted
    exact closes
  · intro t
    have placed (k : Fin 3) : t.pumps[k] = commandPump (decide (k ∈ t.cool.order.take s.cool.required)) s.pumps[k] :=
      reorderPumps_pump s k
    refine ⟨fun changed => if_neg changed, mem_rebuiltOrder s, ?_, fun k => ?_, reorderPumps_commanded_le s, rfl⟩
    · exact (rebuiltOrder_pairwise s).imp fun before => (pumpBefore_iff s _ _).1 before
    · refine ⟨reorderPumps_commanded s k, fun off => ?_, fun starting => ?_, fun running => ?_, reorderPumps_failed s k⟩
      · exact (placed k).trans (commandPump_of_off _ off)
      · exact (placed k).trans (commandPump_of_starting _ starting)
      · exact (placed k).trans (commandPump_of_running _ running)

end


section
/-! PROOF. The cooling unit's other counts: run minutes, the thermal stage, the fan stages and the dry permissive. -/

open Sys2Proof Sys2Proof.Machine

namespace Sys2Proof.Machine

/-! ### The rows of counts as steps (log 1) -/

theorem stateAfter_thermalStageStep (s : State) : stateAfter .thermalStageStep s = thermalStageStep s := rfl

theorem stateAfter_fanStep (s : State) : stateAfter .fanStep s = fanStep s := rfl

/-! ### The pump work of a close leaves the channels -/

section pumps

variable (s : State) (k : Fin 3)

theorem failPump_channels (how : PumpFailure) : (failPump k how s).channels = s.channels := by
  rw [failPump_eq, pumpFailing_frame]
  rfl

theorem requiredAtClose_channels : (requiredAtClose s).channels = s.channels := by
  unfold requiredAtClose
  dsimp only
  split <;> rfl

theorem judgeStarting_channels : (judgeStarting k s).channels = s.channels := by
  rw [judgeStarting_eq]
  dsimp only
  split
  · rfl
  · split
    · rfl
    · split
      · exact failPump_channels _ k .start
      · rfl

theorem judgeRunning_channels : (judgeRunning k s).channels = s.channels := by
  rw [judgeRunning_eq]
  dsimp only
  split
  · rfl
  · split
    · rfl
    · split
      · exact failPump_channels _ k .flow
      · rfl

theorem shortTest_channels : (shortTest s).channels = s.channels := by rw [shortTest_frame]

theorem minuteTick_channels : (minuteTick k s).channels = s.channels := by
  unfold minuteTick runMinute
  dsimp only
  split
  · split <;> rfl
  · rfl

theorem pumpsAtClose_channels : (pumpsAtClose s).channels = s.channels := by
  have keeps {f : Fin 3 → State → State} (work : ∀ t k, (f k t).channels = t.channels) (l : List (Fin 3)) (t : State) :
      (l.foldl (fun t k => f k t) t).channels = t.channels :=
    foldl_keeps (P := fun u => u.channels = t.channels) l (fun k _ u same => (work u k).trans same) t rfl
  obtain ⟨a, b, c₁, c₂, n₁, n₂, -, -, closes⟩ := pumpsAtClose_eq s
  rw [closes, formFactor_channels, keeps minuteTick_channels, shortTest_channels, keeps judgeRunning_channels]
  exact (keeps judgeStarting_channels a _).trans (requiredAtClose_channels s)

end pumps

/-! ### Run minutes (R139) -/

theorem runMinute_due {s : State} {k : Fin 3} (running : s.pumps[k].state = .running)
    (reached : 240000 ≤ s.pumps[k].minuteCount) : runMinute k s = s.setPump k { s.pumps[k] with
      minuteCount := 0
      runMinutes := if s.pumps[k].runMinutes < 4294967295 then s.pumps[k].runMinutes + 1 else 4294967295 } := by
  have stops : min (s.pumps[k].runMinutes + 1) 4294967295 =
      if s.pumps[k].runMinutes < 4294967295 then s.pumps[k].runMinutes + 1 else 4294967295 := by
    split <;> omega
  rw [← stops]
  exact if_pos ⟨running, reached⟩

/-! ### The thermal stage (R141) -/

section thermal

variable {s : State}

theorem aboveUp_iff {v : Int} : aboveUp s v = true ↔
    ∃ j : Fin 4, s.cool.thermal = j.val ∧ s.coolCfg.fanUp[j] < v := by
  by_cases inside : s.cool.thermal < 4
  · simp only [aboveUp, Vector.getElem?_eq_getElem inside, decide_eq_true_iff]
    refine ⟨fun above => ⟨⟨_, inside⟩, rfl, above⟩, fun ⟨j, stage, above⟩ => ?_⟩
    rw [Fin.getElem_fin] at above
    simpa only [stage] using above
  · simp only [aboveUp, Vector.getElem?_eq_none (Nat.le_of_not_lt inside), Bool.false_eq_true, false_iff]
    rintro ⟨j, stage, -⟩
    omega

theorem belowDown_iff {v : Int} : belowDown s v = true ↔
    ∃ j : Fin 4, s.cool.thermal = j.val + 1 ∧ v < s.coolCfg.fanDown[j] := by
  cases stage : s.cool.thermal with
  | zero => simp [belowDown, stage]
  | succ n =>
    by_cases inside : n < 4
    · simp only [belowDown, stage, Nat.succ_pos, decide_true, Bool.true_and, Nat.add_sub_cancel,
        Vector.getElem?_eq_getElem inside, decide_eq_true_iff]
      refine ⟨fun below => ⟨⟨n, inside⟩, rfl, below⟩, fun ⟨j, same, below⟩ => ?_⟩
      rw [Fin.getElem_fin] at below
      simpa only [Nat.succ.inj same] using below
    · simp only [belowDown, stage, Nat.add_sub_cancel, Vector.getElem?_eq_none (Nat.le_of_not_lt inside),
        Bool.and_false, Bool.false_eq_true, false_iff]
      rintro ⟨j, same, -⟩
      omega

theorem thermalCounts_lost (lost : s.channels[s.coolCfg.tin].state ≠ .live) : thermalCounts s =
    { s with cool := { s.cool with thermal := 4, upCount := 0, downCount := 0 } } := by
  rw [thermalCounts, chanValue_of_not_live lost]

theorem thermalCounts_above (live : s.channels[s.coolCfg.tin].state = .live)
    (above : aboveUp s s.channels[s.coolCfg.tin].value = true) : thermalCounts s =
      { s with cool := { s.cool with upCount := s.cool.upCount + 1, downCount := 0 } } := by
  simp only [thermalCounts, chanValue_of_live live, if_pos above]

theorem thermalCounts_below (live : s.channels[s.coolCfg.tin].state = .live)
    (level : ¬ aboveUp s s.channels[s.coolCfg.tin].value = true)
    (below : belowDown s s.channels[s.coolCfg.tin].value = true) : thermalCounts s =
      { s with cool := { s.cool with upCount := 0, downCount := s.cool.downCount + 1 } } := by
  simp only [thermalCounts, chanValue_of_live live, if_neg level, if_pos below]

theorem thermalCounts_steady (live : s.channels[s.coolCfg.tin].state = .live)
    (level : ¬ aboveUp s s.channels[s.coolCfg.tin].value = true)
    (steady : ¬ belowDown s s.channels[s.coolCfg.tin].value = true) : thermalCounts s =
      { s with cool := { s.cool with upCount := 0, downCount := 0 } } := by
  simp only [thermalCounts, chanValue_of_live live, if_neg level, if_neg steady]

theorem thermalStageStep_up (reached : s.coolCfg.fanPersist ≤ s.cool.upCount) (room : s.cool.thermal < 4) :
    thermalStageStep s = { s with cool := { s.cool with
      thermal := s.cool.thermal + 1, upCount := 0, downCount := 0 } } := by
  rw [thermalStageStep, if_pos reached, Nat.min_eq_left (Nat.succ_le_of_lt room)]

theorem thermalStageStep_down (short : s.cool.upCount < s.coolCfg.fanPersist)
    (reached : s.coolCfg.fanPersist ≤ s.cool.downCount) :
    thermalStageStep s = { s with cool := { s.cool with
      thermal := s.cool.thermal - 1, upCount := 0, downCount := 0 } } :=
  (if_neg (Nat.not_le_of_lt short)).trans (if_pos reached)

/-- With both counts at 0 stage 4 does not fall, whatever fan_persist (R141). -/
theorem thermalStageStep_top (top : s.cool.thermal = 4) (counts : s.cool.upCount = s.cool.downCount) :
    (thermalStageStep s).cool.thermal = 4 := by
  by_cases up : s.coolCfg.fanPersist ≤ s.cool.upCount
  · rw [thermalStageStep, if_pos up, top]
    rfl
  · rw [thermalStageStep, if_neg up, if_neg (counts ▸ up), top]

/-- An unusable T_in puts the thermal stage at 4, and its step leaves it there (R141). -/
theorem thermalStage_lost (lost : s.channels[s.coolCfg.tin].state ≠ .live) :
    (thermalStageStep (thermalCounts s)).cool.thermal = 4 := by
  rw [thermalCounts_lost lost]
  exact thermalStageStep_top rfl rfl

end thermal

/-! ### The fan stages and the guard (R142, R143) -/

section fans

variable {s : State}

theorem guardApplies_iff : guardApplies s = true ↔ s.channels[s.coolCfg.tin].state = .live ∧
    s.channels[s.coolCfg.tin].value < s.coolCfg.emergency ∧ ∃ m, s.cool.margin = some m ∧ m < s.coolCfg.guard := by
  by_cases live : s.channels[s.coolCfg.tin].state = .live
  · rw [guardApplies, chanValue_of_live live]
    cases margin : s.cool.margin with
    | none => simp
    | some m => simp [-Fin.getElem_fin, live, and_comm]
  · rw [guardApplies, chanValue_of_not_live live]
    simp [-Fin.getElem_fin, live]

theorem guardTest_drops (applies : guardApplies s = true) (above : s.coolCfg.guardCap < s.cool.commanded) :
    guardTest s = { s with cool := { s.cool with commanded := s.coolCfg.guardCap, stepCount := 0 } } :=
  if_pos (by rw [applies, decide_eq_true above]; rfl)

theorem guardTest_leaves (free : ¬ (guardApplies s = true ∧ s.coolCfg.guardCap < s.cool.commanded)) :
    guardTest s = s :=
  if_neg (by rwa [Bool.and_eq_true, decide_eq_true_iff])

theorem fanStep_moves (differs : s.cool.commanded ≠ wantedNow s) (reached : s.coolCfg.fanStep ≤ s.cool.stepCount) :
    fanStep s = { s with cool := { s.cool with
      wanted := wantedNow s, stepCount := 0
      commanded := if s.cool.commanded < wantedNow s then s.cool.commanded + 1 else s.cool.commanded - 1 } } :=
  if_pos ⟨differs, reached⟩

theorem fanStep_waits (waits : s.cool.commanded = wantedNow s ∨ s.cool.stepCount < s.coolCfg.fanStep) :
    fanStep s = { s with cool := { s.cool with wanted := wantedNow s } } := by
  refine if_neg ?_
  rintro ⟨differs, reached⟩
  exact waits.elim differs (Nat.not_lt_of_le reached)

theorem guardTest_thermal : (guardTest s).cool.thermal = s.cool.thermal := by
  unfold guardTest
  split <;> rfl

theorem stepCountTick_thermal : (stepCountTick s).cool.thermal = s.cool.thermal := rfl

theorem fanStep_thermal : (fanStep s).cool.thermal = s.cool.thermal := by
  unfold fanStep
  dsimp only
  split <;> rfl

end fans

/-! ### The dry permissive and the close (R146) -/

section close

variable {s : State}

theorem dryConfirm_due (off : s.cool.dry = false) (reached : s.coolCfg.dryConfirm ≤ s.cool.dryCount) :
    dryConfirm s = { s with cool := { s.cool with dry := true, dryCount := 0, beenDry := true } } :=
  if_pos (by rw [off, decide_eq_true reached]; rfl)

theorem dryCountTick_thermal : (dryCountTick s).cool.thermal = s.cool.thermal := rfl

theorem dryConfirm_thermal : (dryConfirm s).cool.thermal = s.cool.thermal := by
  unfold dryConfirm
  split <;> rfl

/-- A false permissive meets a margin at or above dry_margin (R146). -/
theorem dryCountTick_advances (good : s.cool.dry = false ∧ ∃ m, s.cool.margin = some m ∧ s.coolCfg.dryMargin ≤ m) :
    dryCountTick s = { s with cool := { s.cool with dryCount := s.cool.dryCount + 1 } } := by
  obtain ⟨off, m, margin, high⟩ := good
  simp [dryCountTick, off, margin, high]

theorem dryCountTick_clears (bad : ¬ (s.cool.dry = false ∧ ∃ m, s.cool.margin = some m ∧ s.coolCfg.dryMargin ≤ m)) :
    dryCountTick s = { s with cool := { s.cool with dryCount := 0 } } := by
  cases margin : s.cool.margin with
  | none => simp [dryCountTick, margin]
  | some m =>
    have low : s.cool.dry = false → m < s.coolCfg.dryMargin :=
      fun off => not_le.1 fun high => bad ⟨off, m, margin, high⟩
    simpa [dryCountTick, margin] using low

/-- The fans and the dry permissive, which the close takes after the thermal stage, leave it (R141, R142, R146). -/
theorem fansAndDry_thermal (u : State) :
    (dryConfirm (dryCountTick (guardTest (fanStep (stepCountTick u))))).cool.thermal = u.cool.thermal := by
  rw [dryConfirm_thermal, dryCountTick_thermal, guardTest_thermal, fanStep_thermal, stepCountTick_thermal]

/-- The close: the pumps, the thermal stage, the fans, the guard and the dry permissive (R139, R141 to R143, R146). -/
theorem coolingClose_eq {s staged u : State} (stages : staged = thermalStageStep (thermalCounts (pumpsAtClose s)))
    (fans : u = fanStep (stepCountTick staged)) : coolingClose s = dryConfirm (dryCountTick (guardTest u)) := by
  rw [coolingClose, fans, stages]

/-- An unusable T_in leaves the close with the thermal stage at 4 (R141). -/
theorem coolingClose_lost (lost : s.channels[s.coolCfg.tin].state ≠ .live) : (coolingClose s).cool.thermal = 4 := by
  have still {v : State} (channels : v.channels = s.channels) (cfg : v.coolCfg = s.coolCfg) :
      v.channels[v.coolCfg.tin].state ≠ .live := by
    simpa only [channels, cfg] using lost
  obtain ⟨staged, stages⟩ : ∃ t, t = thermalStageStep (thermalCounts (pumpsAtClose s)) := ⟨_, rfl⟩
  rw [coolingClose_eq stages rfl, fansAndDry_thermal, stages]
  exact thermalStage_lost (still (pumpsAtClose_channels s) (BlockKept.pumpsAtClose s).coolCfg)

end close

end Sys2Proof.Machine

/-- Settles O33: each count acts by its own step, and the close is those steps on the state that the pumps leave. -/
theorem coolingCountsAct : Obligations.CoolingCountsAct := by
  refine ⟨fun s k running reached => congrArg Host.Outcome.next (runMinute_due running reached), ?_,
    fun s reached room => congrArg Host.Outcome.next (thermalStageStep_up reached room),
    fun s short reached => congrArg Host.Outcome.next (thermalStageStep_down short reached), ?_,
    fun s off reached => congrArg Host.Outcome.next (dryConfirm_due off reached), ?_⟩
  · intro s x k up down counts
    exact ⟨fun lost => ⟨coolingClose_lost lost, thermalCounts_lost lost⟩,
      fun live above => thermalCounts_above live (aboveUp_iff.2 above),
      fun live level below => thermalCounts_below live (mt aboveUp_iff.1 level) (belowDown_iff.2 below),
      fun live level steady => thermalCounts_steady live (mt aboveUp_iff.1 level) (mt belowDown_iff.1 steady)⟩
  · intro s w x guarded free capped uncapped
    have wanted : wantedNow s = w := by
      by_cases applies : guardApplies s = true
      · exact (if_pos applies).trans (capped (guardApplies_iff.1 applies)).symm
      · exact (if_neg applies).trans (uncapped (mt guardApplies_iff.2 applies)).symm
    rw [← wanted]
    exact ⟨fun differs reached => congrArg Host.Outcome.next (fanStep_moves differs reached),
      fun waits => congrArg Host.Outcome.next (fanStep_waits waits)⟩
  · intro v staged u stages fans guarded drying does
    rw [stateAfter_thermalStageStep] at stages
    rw [stateAfter_fanStep] at fans
    have closes : blockClose .cooling v = stateAfter .dryConfirm (dryCountTick (guardTest u)) :=
      coolingClose_eq stages fans
    have dries {w : State} (tests : guardTest u = w) (same : (w.cool.dry = false ∧
        ∃ m, w.cool.margin = some m ∧ w.coolCfg.dryMargin ≤ m) ↔ drying) (count : w.cool.dryCount = u.cool.dryCount) :
        does w := by
      refine ⟨fun good => closes.trans ?_, fun bad => closes.trans ?_⟩
      · rw [tests, dryCountTick_advances (same.2 good), count]
      · rw [tests, dryCountTick_clears (mt same.1 bad)]
    have condition : guardApplies u = true ∧ u.coolCfg.guardCap < u.cool.commanded ↔ guarded := by
      rw [guardApplies_iff, and_assoc, and_assoc]
    refine ⟨fun drops => ?_, fun stays => ?_⟩
    · obtain ⟨applies, above⟩ := condition.2 drops
      exact dries (guardTest_drops applies above) Iff.rfl rfl
    · exact dries (guardTest_leaves (mt condition.1 stays)) Iff.rfl rfl

end


section
/-! PROOF. The rise of a cause, and the write of a cause's enables. -/

open Sys2Proof Sys2Proof.Machine

namespace Sys2Proof.Machine

/-! ### Rises -/

section rise

variable (c : Fin 128) (a : RecAction) (sub : Subject) (v : Option Half) {s : State}
  (bare : s.causes[c].pending = false)

include bare

/-- With report_enable OFF a rise files nothing (R152). -/
theorem raise_unreported (off : s.causes[c].reportEnable = false) :
    raise c a sub v s = { s with causes := s.causes.set c { s.causes[c] with pending := true } } := by
  rw [raise, if_neg (Bool.eq_false_iff.1 bare)]
  exact if_neg (Bool.eq_false_iff.1 off)

/-- A rise that meets a full queue loses its record: the overflow flag goes ON, and REPORT_OVERFLOW becomes pending
beside the cause itself (R161). -/
theorem raise_overflows (enabled : s.causes[c].reportEnable = true) (full : 32 ≤ s.reports.queue.length) :
    let up := s.causes.set c { s.causes[c] with pending := true }
    raise c a sub v s = { s with
      causes := up.set CauseNo.reportOverflow { up[CauseNo.reportOverflow] with pending := true }
      reports := { s.reports with overflow := true } } := by
  rw [raise, if_neg (Bool.eq_false_iff.1 bare)]
  exact (if_pos enabled).trans (if_neg (Nat.not_lt.2 full))

end rise

/-- A rise does not turn the overflow flag OFF (R161). -/
theorem raise_overflow_mono (c : Fin 128) (a : RecAction) (sub : Subject) (v : Option Half) (s : State)
    (on : s.reports.overflow = true) : (raise c a sub v s).reports.overflow = true := by
  unfold raise fileRecord
  dsimp only
  split
  · exact on
  · split
    · split
      · exact on
      · rfl
    · exact on

/-- A rise of one cause leaves the others, REPORT_OVERFLOW apart (R152, R161). -/
theorem raise_causes_ne {c d : Fin 128} (a : RecAction) (sub : Subject) (v : Option Half) (s : State) (other : c ≠ d)
    (overflow : c ≠ CauseNo.reportOverflow) : (raise d a sub v s).causes[c] = s.causes[c] := by
  have one : (s.setCause d { s.causes[d] with pending := true }).causes[c] = s.causes[c] := s.setCause_at_ne d c _ other
  unfold raise fileRecord
  dsimp only
  split
  · rfl
  · split
    · split
      · exact one
      · exact (State.setCause_at_ne _ CauseNo.reportOverflow c _ overflow).trans one
    · exact one

/-! ### The enables (R158) -/

/-- A write of an OPERATOR field whose index names no entry is refused (R178 step 4). -/
theorem writeRequest_indexRefused {table : Octet} {r : ReqArgs} {s : State} {form : Form}
    (h : ReachedAt .operator r s) (mode : table ≠ 15)
    (field : (tableFields table.toNat r.index.toNat)[r.field.toNat]? = some (operatorField form))
    (writable : form ≠ .readOnly) (index : indexTaken table.toNat r.index.toNat = false) :
    inFollowing (writeRequest table r) s = refuse table r .refusedIndex s := by
  obtain ⟨a, reaches, checked⟩ := writeRequest_reached h mode field
  rw [checked, writeChecked, if_neg (by simp [operatorField, When.allows]),
    if_neg (by simp [operatorField, writable, reaches]), if_pos (by simp [index])]

/-- The index of a cause is taken when the cause is assigned (R158). -/
theorem indexTaken_cause {i : Nat} {c : Fin 128} (index : i = c.val) :
    indexTaken 14 i = decide (causeKind c ≠ .unassigned) := by
  have inside : i < tableSize 14 := index ▸ c.isLt
  rw [indexTaken, fin_ofNat_of_eq c i index, decide_eq_true inside]
  rfl

/-- What the write of an enable does to its cause (R158). -/
theorem writeCause_enable (c : Fin 128) (f : Octet) (s : State) (w : Word) (flag : w.toNat < 2) :
    writeCause c f.toNat w.toNat s = s.setCause c
      (if f = 2 then { s.causes[c] with summaryEnable := decide (w = 1) }
      else { s.causes[c] with reportEnable := decide (w = 1) }) := by
  have summary : f.toNat = 2 ↔ f = 2 := ⟨fun e => BitVec.eq_of_toNat_eq e, fun e => e ▸ rfl⟩
  unfold writeCause
  simp only [flagOf_eq w flag, summary]
  split <;> rfl

end Sys2Proof.Machine

/-- Settles O55. -/
theorem raiseRecordsOncePending : Obligations.RaiseRecordsOncePending := by
  intro c a sub v s up x
  refine ⟨raise_of_pending c a sub v s, fun bare off => raise_unreported c a sub v bare off,
    fun bare on room => raise_filed c a sub v s bare on room, fun bare on full => ?_⟩
  have lost := raise_overflows c a sub v bare on full
  refine ⟨?_, raise_pending_self c a sub v s, ?_⟩
  · rw [lost]
  · rw [lost]
    simp

/-- Settles O46: both enables are OPERATOR fields that are written in every nacelle state. -/
theorem causeEnableWriteActs : Obligations.CauseEnableWriteActs := by
  intro r s c h index enable flag on reply x
  have field : (tableFields 14 r.index.toNat)[r.field.toNat]? = some (operatorField flagForm) := by
    obtain two | three := enable
    · rw [two]; rfl
    · rw [three]; rfl
  refine ⟨fun unassigned => ?_, fun assigned => ?_⟩
  · have refused := writeRequest_indexRefused (table := 14) h (by decide) field (by decide)
      ((indexTaken_cause index).trans (decide_eq_false (not_not.2 unassigned)))
    exact congrArg Host.Outcome.next refused
  · have written := writeRequest_checked (table := 14) h (by decide) field (le_refl _) rfl (by decide)
      ((indexTaken_cause index).trans (decide_eq_true assigned)) (take_flag r.value flag)
    rw [show applyWrite _ _ _ _ _ = some (writeCause (Fin.ofNat 128 r.index.toNat) r.field.toNat r.value.toNat s)
      from rfl, fin_ofNat_of_eq c _ index, writeCause_enable c r.field s r.value flag, wordOf_toNat] at written
    exact congrArg Host.Outcome.next written

end


section
/-! PROOF. CLEAR: its two steps for EVENT and LEVEL causes, and the latched limits that it releases. -/

open Sys2Proof Sys2Proof.Machine

namespace Sys2Proof.Machine

/-! ### The causes that a CLEAR names (R183) -/

theorem mem_allIdx {n : Nat} {p : Fin n → Bool} (i : Fin n) : i ∈ allIdx p ↔ p i = true := by
  simp [allIdx]

theorem allIdx_eq_singleton {n : Nat} {p : Fin n → Bool} {i : Fin n} (only : ∀ j, j ∈ allIdx p ↔ j = i) :
    allIdx p = [i] :=
  List.perm_singleton.1 ((List.perm_ext_iff_of_nodup ((List.nodup_finRange n).filter p)
    (List.nodup_singleton i)).2 fun j => (only j).trans List.mem_singleton.symm)

theorem mem_namedCauses (g : Fin 8) (set : Word) (c : Fin 128) : c ∈ namedCauses g set ↔
    (decide (c.val / 16 = g.val) && set.getLsbD (c.val % 16)) = true ∧ causeKind c ≠ .unassigned := by
  simp [namedCauses, mem_allIdx]

/-- A request to CLEAR causes of group `g` replies with those that are pending once they are cleared (R183). -/
theorem clearRequest_taken {l : Authority} {r : ReqArgs} {s u : State} {g : Fin 8} (h : ReachedAt l r s)
    (index : r.index.toNat = g.val) (left : clearCauses (namedCauses g r.value) s = u) :
    exec (.clear 14 r) s = .next (prepare (replyTo 14 r .ok (wordOfNat (pendingSet u g))) u) := by
  obtain ⟨following, a, claimed, -⟩ := h
  refine congrArg Host.Outcome.next ?_
  simp only [inFollowing, following, if_true, clearRequest, withAuthority, claimed]
  rw [if_neg (not_not.2 rfl), if_neg (by omega), fin_ofNat_of_eq g _ index, left]

/-! ### The marks that go off (R155) -/

/-- A cause without its two marks. -/
def Cause.lowered (x : Cause) : Cause :=
  { x with pending := false, injected := false }

/-- Step 1 of a CLEAR for a cause without anything at another block (R155). -/
def lowerCause (c : Fin 128) (s : State) : State :=
  s.setCause c s.causes[c].lowered

/-- Step 1 of a CLEAR: the marks go off, and then the limit unit or the overflow flag has its turn (R155, R161). -/
theorem clearStep1_eq (c : Fin 128) (s : State) : clearStep1 c s =
    if isLimitCause c then limitsAtClear c (lowerCause c s)
    else if c = CauseNo.reportOverflow ∧ s.reports.queue = [] then
      { lowerCause c s with reports := { s.reports with overflow := false } }
    else lowerCause c s := rfl

theorem isLimitCause_iff (c : Fin 128) : isLimitCause c = true ↔ 96 ≤ c.val := decide_eq_true_iff

theorem causeKind_limitCause : ∀ c : Fin 128, 96 ≤ c.val → causeKind c = .level := by decide

theorem clearStep1_limitCause {c : Fin 128} (limit : 96 ≤ c.val) (s : State) :
    clearStep1 c s = limitsAtClear c (lowerCause c s) := by
  rw [clearStep1_eq, if_pos ((isLimitCause_iff c).2 limit)]

theorem clearStep1_lowers {c : Fin 128} {s : State} (block : c.val < 96)
    (stands : ¬ (c = CauseNo.reportOverflow ∧ s.reports.queue = [])) : clearStep1 c s = lowerCause c s := by
  rw [clearStep1_eq, if_neg (mt (isLimitCause_iff c).1 (by omega)), if_neg stands]

/-- With no record left the flag that is the condition of REPORT_OVERFLOW goes OFF (R161). -/
theorem clearStep1_overflow {s : State} (empty : s.reports.queue = []) : clearStep1 CauseNo.reportOverflow s =
    { lowerCause CauseNo.reportOverflow s with reports := { s.reports with overflow := false } } := by
  rw [clearStep1_eq, if_neg (by decide), if_pos ⟨rfl, empty⟩]

/-- An EVENT cause has neither a limit nor the overflow flag behind it (R151). -/
theorem clearStep1_of_not_level {c : Fin 128} (event : causeKind c ≠ .level) (s : State) :
    clearStep1 c s = lowerCause c s := by
  refine clearStep1_lowers ?_ ?_
  · by_contra limit
    exact event (causeKind_limitCause c (by omega))
  · rintro ⟨rfl, -⟩
    exact event (by decide)

/-! ### Step 2 (R154, R155) -/

/-- Only LEVEL causes have a condition (R152). -/
theorem riseAgain_of_not_level {c : Fin 128} (event : causeKind c ≠ .level) (s : State) : riseAgain c s = s := by
  simp [riseAgain, causeCondition, event]

theorem riseAgain_ended {c : Fin 128} {s : State} (ended : blockCondition c s = false)
    (unmarked : s.causes[c].injected = false) : riseAgain c s = s := by
  rw [riseAgain, causeCondition, ended, unmarked, Bool.or_self, Bool.and_false]
  rfl

/-- No block's condition reads the causes. -/
theorem blockCondition_lowerCause (c d : Fin 128) (s : State) :
    blockCondition c (lowerCause d s) = blockCondition c s := rfl

theorem lowerCause_at (c : Fin 128) (s : State) : (lowerCause c s).causes[c] = s.causes[c].lowered :=
  s.setCause_at c _

/-- What the rise of a cleared cause comes to: `c` is pending again without its injected mark, and with report_enable
ON a queue that has room holds its new record (R154, R155). -/
structure RisenAnew (c : Fin 128) (s t : State) : Prop where
  pending : t.causes[c].pending = true
  unmarked : t.causes[c].injected = false
  filed : s.causes[c].reportEnable = true → s.reports.queue.length < 32 →
    ∃ x, t.reports.queue = s.reports.queue ++ [x] ∧ x.cause = c ∧ x.stamp = s.ring.extCount
  overflow : s.reports.overflow = true → t.reports.overflow = true
  frame : t = { s with causes := t.causes, reports := t.reports }

/-- A LEVEL cause whose condition holds rises anew after step 1 (R155). -/
theorem riseAgain_lowerCause {c : Fin 128} {s : State} (level : causeKind c = .level)
    (holds : blockCondition c s = true) : RisenAnew c s (riseAgain c (lowerCause c s)) := by
  have condition : causeCondition c (lowerCause c s) = true := by
    rw [causeCondition, blockCondition_lowerCause, level, holds]
    rfl
  have lowered := lowerCause_at c s
  rw [riseAgain, if_pos condition]
  dsimp only
  refine ⟨raise_pending_self .., ?_, fun enabled room => ?_,
    raise_overflow_mono _ _ _ _ (lowerCause c s), raise_frame ..⟩
  · rw [(raise_marks ..).2.2, lowered]
    rfl
  · rw [raise_filed _ _ _ _ (lowerCause c s) (by rw [lowered]; rfl) (by rw [lowered]; exact enabled) room]
    exact ⟨_, rfl, rfl, rfl⟩

/-! ### EVENT causes -/

theorem foldl_lowerCause (l : List (Fin 128)) (s : State) : l.foldl (fun t c => lowerCause c t) s =
    { s with causes := Vector.ofFn fun c => if c ∈ l then s.causes[c].lowered else s.causes[c] } := by
  induction l generalizing s with
  | nil => simp
  | cons d l ih =>
    have causes : (Vector.ofFn fun c =>
        if c ∈ l then (lowerCause d s).causes[c].lowered else (lowerCause d s).causes[c]) =
        Vector.ofFn fun c => if c ∈ d :: l then s.causes[c].lowered else s.causes[c] := by
      refine congrArg Vector.ofFn (funext fun c => ?_)
      by_cases here : c = d
      · subst here
        rw [lowerCause_at]
        simp [Cause.lowered]
      · rw [show (lowerCause d s).causes[c] = s.causes[c] from s.setCause_at_ne d c _ here]
        simp [here]
    rw [List.foldl_cons, ih, causes]
    rfl

/-- A CLEAR of causes none of which is LEVEL takes their marks off and does nothing else (R155). -/
theorem clearCauses_events {l : List (Fin 128)} (events : ∀ c ∈ l, causeKind c ≠ .level) (s : State) :
    clearCauses l s =
      { s with causes := Vector.ofFn fun c => if c ∈ l then s.causes[c].lowered else s.causes[c] } := by
  have first (t : State) : l.foldl (fun t c => clearStep1 c t) t = l.foldl (fun t c => lowerCause c t) t :=
    List.foldl_ext _ _ _ fun t c mem => clearStep1_of_not_level (events c mem) t
  have second (t : State) : l.foldl (fun t c => riseAgain c t) t = t :=
    foldl_keeps (P := (· = t)) l (fun c mem u same => (riseAgain_of_not_level (events c mem) u).trans same) t rfl
  rw [clearCauses, second, first, foldl_lowerCause]

/-! ### Limit causes (R58) -/

theorem holdsLimitCause_iff (s : State) (c : Fin 128) (i : Fin 96) : holdsLimitCause s c i = true ↔
    s.limits[i].enable = true ∧
      (s.limits[i].level = .warn ∧ s.limits[i].warnCause = some c ∨
        s.limits[i].level = .trip ∧ s.limits[i].tripCause = c) := by
  simp [holdsLimitCause]

theorem blockCondition_limitCause {c : Fin 128} (limit : 96 ≤ c.val) (s : State) :
    blockCondition c s = true ↔ ∃ i, holdsLimitCause s c i = true := by
  simp [blockCondition, (isLimitCause_iff c).2 limit, someIdx]

/-- A limit that is enabled, latched and in TRIP with trip cause `c`: the ones that a CLEAR of `c` examines (R59). -/
def LatchedTrip (c : Fin 128) (l : Limit) : Prop :=
  l.enable = true ∧ l.latch = true ∧ l.level = .trip ∧ l.tripCause = c

/-- The latched limits that a CLEAR of `c` examines (R59). -/
def examined (c : Fin 128) (s : State) : List (Fin 96) :=
  allIdx fun i : Fin 96 => inTrip s i && s.limits[i].latch && s.limits[i].tripCause = c

theorem limitsAtClear_eq (c : Fin 128) (s : State) :
    limitsAtClear c s = inOpenOrder (examined c s) (clearLimit c) s := rfl

theorem mem_examined (c : Fin 128) (s : State) (i : Fin 96) : i ∈ examined c s ↔ LatchedTrip c s.limits[i] := by
  simp only [examined, mem_allIdx, inTrip, LatchedTrip, Bool.and_eq_true, decide_eq_true_eq]
  tauto

theorem limitsAtClear_none {c : Fin 128} {s : State} (free : ∀ i : Fin 96, ¬ LatchedTrip c s.limits[i]) :
    limitsAtClear c s = s := by
  have empty : examined c s = [] := List.eq_nil_iff_forall_not_mem.2 fun i mem => free i ((mem_examined c s i).1 mem)
  rw [limitsAtClear_eq, empty, inOpenOrder_nil]

theorem limitsAtClear_one {c : Fin 128} {s : State} {i : Fin 96} (latched : LatchedTrip c s.limits[i])
    (others : ∀ j : Fin 96, j ≠ i → s.limits[j].tripCause ≠ c) : limitsAtClear c s = clearLimit c i s := by
  have one : examined c s = [i] := by
    refine allIdx_eq_singleton fun j => (mem_examined c s j).trans ⟨fun ⟨_, _, _, cause⟩ => ?_, fun e => e ▸ latched⟩
    exact of_not_not fun other => others j other cause
  rw [limitsAtClear_eq, one, inOpenOrder_single]

/-- A limit cause that no latched TRIP names goes through step 1 as any other cause does (R59). -/
theorem clearStep1_unlatched {c : Fin 128} {s : State}
    (free : c.val < 96 ∨ ∀ i : Fin 96, ¬ LatchedTrip c s.limits[i])
    (stands : ¬ (c = CauseNo.reportOverflow ∧ s.reports.queue = [])) : clearStep1 c s = lowerCause c s := by
  by_cases limit : 96 ≤ c.val
  · rw [clearStep1_limitCause limit]
    exact limitsAtClear_none (free.resolve_left (by omega))
  · exact clearStep1_lowers (by omega) stands

/-- A latched TRIP holds the condition of its trip cause (R58). -/
theorem LatchedTrip.holds {c : Fin 128} {s : State} {i : Fin 96} (latched : LatchedTrip c s.limits[i])
    (limit : 96 ≤ c.val) : blockCondition c s = true := by
  obtain ⟨enabled, -, trip, cause⟩ := latched
  exact (blockCondition_limitCause limit s).2 ⟨i, (holdsLimitCause_iff s c i).2 ⟨enabled, .inr ⟨trip, cause⟩⟩⟩

/-- A CLEAR of a cause whose condition has ended takes its marks off, and leaves the overflow flag as it is (R155). -/
theorem clearCauses_ended {c : Fin 128} {s : State} (ended : blockCondition c s = false) :
    clearCauses [c] s = lowerCause c s := by
  have unlatched : c.val < 96 ∨ ∀ i : Fin 96, ¬ LatchedTrip c s.limits[i] := by
    refine (Nat.lt_or_ge c.val 96).imp_right fun limit i latched => ?_
    simp [latched.holds limit] at ended
  have first : clearStep1 c s = lowerCause c s := by
    by_cases overflow : c = CauseNo.reportOverflow ∧ s.reports.queue = []
    · obtain ⟨rfl, empty⟩ := overflow
      have off : s.reports.overflow = false := ended
      rw [clearStep1_overflow empty, ← off]
      rfl
    · exact clearStep1_unlatched unlatched overflow
  show riseAgain c (clearStep1 c s) = _
  rw [first]
  exact riseAgain_ended ended (by rw [lowerCause_at]; rfl)

/-- A CLEAR of a LEVEL cause whose condition holds after step 1, with no limit to release and the overflow flag left
alone, ends with the cause pending anew (R155). -/
theorem clearCauses_holding {c : Fin 128} {s : State} (level : causeKind c = .level)
    (first : clearStep1 c s = lowerCause c s) (holds : blockCondition c s = true) :
    RisenAnew c s (clearCauses [c] s) := by
  have second := riseAgain_lowerCause level holds
  rw [← first] at second
  exact second

/-- With an empty queue the CLEAR of REPORT_OVERFLOW ends its condition (R161). -/
theorem clearCauses_overflow {s : State} (empty : s.reports.queue = []) :
    clearCauses [CauseNo.reportOverflow] s =
      { lowerCause CauseNo.reportOverflow s with reports := { s.reports with overflow := false } } := by
  show riseAgain _ (clearStep1 CauseNo.reportOverflow s) = _
  rw [clearStep1_overflow empty]
  exact riseAgain_ended rfl (congrArg Cause.injected (lowerCause_at CauseNo.reportOverflow s))

/-! ### A latched limit (R59) -/

/-- A value lies past a hold line when it does not reach it any more (R54, R59). -/
theorem reachesLevel_holdLine_eq_false_iff (d : Direction) (v x : Int) (hysteresis : Nat) :
    reachesLevel d v (holdLine d x hysteresis) = false ↔
      d = .high ∧ v < x - hysteresis ∨ d = .low ∧ x + hysteresis < v := by
  rw [reachesLevel_eq, holdLine_eq]
  cases d with
  | high => simpa using lt_sub_iff_add_lt.symm
  | low => simp

/-- What a CLEAR makes of a limit that it takes out of TRIP (R59). -/
def Limit.released (l : Limit) (x : Target) : Limit :=
  { l with level := x.toLevel, target := x, counter := 0 }

section latched

variable {c : Fin 128} {s : State} {i : Fin 96} (latched : LatchedTrip c s.limits[i])

include latched

/-- Past the hold line of TRIP the target is WARN or CLEAR by the hold line of WARN (R54). -/
theorem LatchedTrip.targetOf {v : Int} (back : recovered s.limits[i] v = true) :
    Machine.targetOf s.limits[i] v =
      if reachesLevel s.limits[i].direction v (holdLine s.limits[i].direction s.limits[i].warn s.limits[i].hysteresis)
        then .warn else .clear := by
  obtain ⟨-, -, trip, -⟩ := latched
  have past : ¬ reachesLevel s.limits[i].direction v
      (holdLine s.limits[i].direction s.limits[i].trip s.limits[i].hysteresis) = true := by
    rw [Bool.not_eq_true, ← Bool.not_eq_true']
    exact back
  rw [targetOf_eq _ v (by rw [trip]; decide), trip, if_pos rfl, if_neg past]
  rfl

theorem LatchedTrip.clearLimit_releases {v : Int} (live : s.channels[s.limits[i].channel].state = .live)
    (last : s.limits[i].lastValue = some v) (back : recovered s.limits[i] v = true) :
    clearLimit c i s =
      levelEntered i (s.setLimit i (s.limits[i].released (Machine.targetOf s.limits[i] v))) := by
  obtain ⟨enabled, latch, trip, cause⟩ := latched
  unfold clearLimit
  dsimp only
  rw [if_pos (by simp [-Fin.getElem_fin, enabled, latch, trip, cause, usable, live]), last]
  dsimp only
  rw [if_pos back, ← last]
  rfl

end latched

/-- A limit whose last value has not recovered, or whose channel is not usable, is left as it is (R59). -/
theorem clearLimit_stays {c : Fin 128} {s : State} {i : Fin 96} (stays : ∀ v, s.channels[s.limits[i].channel].state = .live →
    s.limits[i].lastValue = some v → recovered s.limits[i] v = false) : clearLimit c i s = s := by
  unfold clearLimit
  dsimp only
  split
  · rename_i reads
    have live : s.channels[s.limits[i].channel].state = .live :=
      of_decide_eq_true (Bool.and_eq_true_iff.1 reads).2
    split
    · rename_i v last
      exact if_neg (Bool.eq_false_iff.1 (stays v live last))
    · rfl
  · rfl

/-- A limit that enters WARN raises its warn cause and touches no other but REPORT_OVERFLOW (R57). -/
theorem levelEntered_warn_spec {i : Fin 96} {l : Limit} {c : Fin 128} (s : State) (level : l.level = .warn)
    (other : l.warnCause ≠ some c) (overflow : c ≠ CauseNo.reportOverflow) :
    let t := levelEntered i (s.setLimit i l)
    t.causes[c] = s.causes[c] ∧ (∀ d, l.warnCause = some d → t.causes[d].pending = true) ∧
      t = { s with limits := s.limits.set i l, causes := t.causes, reports := t.reports } := by
  intro t
  have entered : t = _ := levelEntered_warn i s level
  cases warn : l.warnCause with
  | none =>
    rw [warn] at entered
    rw [entered]
    exact ⟨rfl, fun _ named => absurd named nofun, rfl⟩
  | some d =>
    rw [warn] at entered
    rw [entered]
    refine ⟨raise_causes_ne _ _ _ _ (fun e => other (e ▸ warn)) overflow, fun e here => ?_, raise_frame ..⟩
    cases here
    exact raise_pending_self ..

/-- Once the only limit that names `c` has left TRIP, and does not name it at WARN, the condition of `c` has ended
(R58). -/
theorem blockCondition_released {c : Fin 128} {s t : State} {i : Fin 96} {l : Limit} (limit : 96 ≤ c.val)
    (placed : t.limits = s.limits.set i l) (left : l.level ≠ .trip) (warn : l.warnCause ≠ some c)
    (others : ∀ j : Fin 96, j ≠ i → s.limits[j].tripCause ≠ c ∧ s.limits[j].warnCause ≠ some c) :
    blockCondition c t = false := by
  rw [Bool.eq_false_iff, Ne, blockCondition_limitCause limit]
  rintro ⟨j, holds⟩
  obtain ⟨-, names⟩ := (holdsLimitCause_iff t c j).1 holds
  rw [placed] at names
  by_cases here : j = i
  · subst here
    rw [show (s.limits.set j l)[j] = l from s.setLimit_at j l] at names
    exact names.elim (fun atWarn => warn atWarn.2) fun atTrip => left atTrip.1
  · obtain ⟨noTrip, noWarn⟩ := others j here
    rw [show (s.limits.set i l)[j] = s.limits[j] from s.setLimit_at_ne i j l here] at names
    exact names.elim (fun atWarn => noWarn atWarn.2) fun atTrip => noTrip atTrip.2

section only

variable {c : Fin 128} {s : State} {i : Fin 96} (limit : 96 ≤ c.val) (latched : LatchedTrip c s.limits[i])
  (others : ∀ j : Fin 96, j ≠ i → s.limits[j].tripCause ≠ c ∧ s.limits[j].warnCause ≠ some c)

include limit latched others

theorem clearStep1_latched : clearStep1 c s = clearLimit c i (lowerCause c s) := by
  rw [clearStep1_limitCause limit]
  exact limitsAtClear_one (s := lowerCause c s) latched fun j other => (others j other).1

/-- A latched TRIP that has not recovered stays, and its cause is pending anew (R59). -/
theorem clearCauses_latched (stays : ∀ v, s.channels[s.limits[i].channel].state = .live →
    s.limits[i].lastValue = some v → recovered s.limits[i] v = false) : RisenAnew c s (clearCauses [c] s) := by
  refine clearCauses_holding (causeKind_limitCause c limit) ?_ (latched.holds limit)
  rw [clearStep1_latched limit latched others]
  exact clearLimit_stays (s := lowerCause c s) stays

variable {v : Int} (live : s.channels[s.limits[i].channel].state = .live) (last : s.limits[i].lastValue = some v)
  (back : recovered s.limits[i] v = true) (warn : s.limits[i].warnCause ≠ some c)

include live last back warn

/-- A latched TRIP that has recovered past both hold lines is CLEAR, and its cause is down (R59). -/
theorem clearCauses_releases_clear (target : targetOf s.limits[i] v = .clear) :
    clearCauses [c] s = (lowerCause c s).setLimit i (s.limits[i].released .clear) := by
  have first : clearStep1 c s = (lowerCause c s).setLimit i (s.limits[i].released .clear) := by
    rw [clearStep1_latched limit latched others,
      LatchedTrip.clearLimit_releases (s := lowerCause c s) latched live last back,
      show targetOf (lowerCause c s).limits[i] v = .clear from target]
    exact levelEntered_clear i (lowerCause c s) rfl
  show riseAgain c (clearStep1 c s) = _
  rw [first]
  exact riseAgain_ended (blockCondition_released limit rfl (show Level.clear ≠ .trip by decide) warn others)
    (congrArg Cause.injected (lowerCause_at c s))

/-- One that has recovered past the hold line of TRIP alone is at WARN, with its warn cause pending and its trip cause
down (R59). -/
theorem clearCauses_releases_warn (target : targetOf s.limits[i] v = .warn) :
    let t := clearCauses [c] s
    t.causes[c].pending = false ∧ (∀ d, s.limits[i].warnCause = some d → t.causes[d].pending = true) ∧
      t = { s with
        limits := s.limits.set i (s.limits[i].released .warn), causes := t.causes, reports := t.reports } := by
  have first : clearStep1 c s = levelEntered i ((lowerCause c s).setLimit i (s.limits[i].released .warn)) := by
    rw [clearStep1_latched limit latched others,
      LatchedTrip.clearLimit_releases (s := lowerCause c s) latched live last back,
      show targetOf (lowerCause c s).limits[i] v = .warn from target]
    rfl
  have block : c ≠ CauseNo.reportOverflow := by
    rintro rfl
    exact absurd limit (by decide)
  obtain ⟨cause, raised, frame⟩ :=
    levelEntered_warn_spec (l := s.limits[i].released .warn) (lowerCause c s) rfl warn block
  rw [← first] at cause raised frame
  have down := cause.trans (lowerCause_at c s)
  have second : clearCauses [c] s = clearStep1 c s :=
    riseAgain_ended (blockCondition_released limit (congrArg State.limits frame) (show Level.warn ≠ .trip by decide) warn
      others) (congrArg Cause.injected down)
  rw [second]
  exact ⟨congrArg Cause.pending down, raised, frame⟩

end only

end Sys2Proof.Machine

/-- Settles O47: with one cause named, each clause says what `clearCauses` leaves of the state, and the request then
prepares its reply. -/
theorem clearLowersEventsAndKeepsHeldLevels : Obligations.ClearLowersEventsAndKeepsHeldLevels := by
  intro r s g h index named reply does
  have listed (c : Fin 128) : c ∈ namedCauses g r.value ↔ named c = true ∧ causeKind c ≠ .unassigned :=
    mem_namedCauses g r.value c
  have cleared {u : State} (left : clearCauses (namedCauses g r.value) s = u) : does { u with reply := reply u } :=
    ⟨clearRequest_taken h index left, rfl⟩
  refine ⟨fun events => ?_, fun c only level => ?_⟩
  · refine ⟨_, cleared (clearCauses_events (fun c mem => events c ((listed c).1 mem).1) s), fun c => ?_, rfl⟩
    have eventful : c ∈ namedCauses g r.value ↔ named c = true ∧ causeKind c = .event := by
      refine (listed c).trans (and_congr_right fun name => ?_)
      have other := events c name
      revert other
      cases causeKind c <;> decide
    simp [eventful, Cause.lowered]
  intro down again latched
  have single : namedCauses g r.value = [c] := allIdx_eq_singleton fun d => (listed d).trans
    ⟨fun name => (only d).1 name.1, fun e => ⟨(only d).2 e, by rw [e, level]; decide⟩⟩
  have leaves {u : State} (left : clearCauses [c] s = u) : does { u with reply := reply u } :=
    cleared ((congrArg (clearCauses · s) single).trans left)
  have anew {u : State} (risen : RisenAnew c s u) : again { u with reply := reply u } :=
    ⟨risen.pending, risen.unmarked, risen.filed, congrArg (fun t : State => { t with reply := reply u }) risen.frame⟩
  refine ⟨fun ended => ⟨_, leaves (clearCauses_ended ended), rfl⟩, fun other free holds => ?_,
    fun overflow filled on => ?_, fun overflow empty => ?_, ?_⟩
  · exact ⟨_, leaves rfl, anew (clearCauses_holding level (clearStep1_unlatched free fun e => other e.1) holds)⟩
  · subst overflow
    have risen := clearCauses_holding level (clearStep1_lowers (by decide) fun e => filled e.2) on
    exact ⟨_, leaves rfl, risen.overflow on, anew risen⟩
  · subst overflow
    exact ⟨_, leaves (clearCauses_overflow empty), rfl⟩
  intro i limit latch warn others l back recovers lowered
  have past (x v : Int) : reachesLevel l.direction v (holdLine l.direction x l.hysteresis) = false ↔ back x v :=
    reachesLevel_holdLine_eq_false_iff ..
  have regained (v : Int) : recovered l v = true ↔ back l.trip v :=
    (Iff.of_eq (Bool.not_eq_true' _)).trans (past l.trip v)
  refine ⟨fun v ⟨live, last, trip⟩ clears => ?_, fun v ⟨live, last, trip⟩ warns => ?_, fun stays => ?_⟩
  · have target : targetOf l v = .clear :=
      (LatchedTrip.targetOf latch ((regained v).2 trip)).trans (if_neg (Bool.eq_false_iff.1 ((past l.warn v).2 clears)))
    exact ⟨_, leaves (clearCauses_releases_clear limit latch others live last ((regained v).2 trip) warn target), rfl⟩
  · have target : targetOf l v = .warn :=
      (LatchedTrip.targetOf latch ((regained v).2 trip)).trans
        (if_pos (eq_true_of_ne_false (mt (past l.warn v).1 warns)))
    obtain ⟨cause, raised, frame⟩ :=
      clearCauses_releases_warn limit latch others live last ((regained v).2 trip) warn target
    exact ⟨_, leaves rfl, cause, raised,
      congrArg (fun t : State => { t with reply := reply (clearCauses [c] s) }) frame⟩
  · refine ⟨_, leaves rfl, anew (clearCauses_latched limit latch others fun v live last => ?_)⟩
    exact Bool.eq_false_iff.2 fun regains => stays v ⟨live, last, (regained v).1 regains⟩

end


section
/-! PROOF. Reads, and the write of the mode record. -/

open Sys2Proof Sys2Proof.Machine

namespace Sys2Proof.Machine

/-! ### What a read gives (R179, R181) -/

/-- Field `k` of the forced set holds one bit for each of its 32 channels (R181). -/
theorem forcedWord_getLsbD (s : State) {k : Nat} {n : Fin 32} {ch : Fin 128} (place : ch.val = 32 * k + n.val) :
    (forcedWord s k).getLsbD n.val = s.channels[ch].forced := by
  rw [forcedWord, wordOfNat, BitVec.getLsbD_ofNat, bitsOf_testBit, decide_eq_true n.isLt, Bool.true_and,
    Bool.true_and]
  exact congrArg (fun j : Fin 128 => s.channels[j].forced) (fin_ofNat_of_eq ch _ place.symm)

theorem tableWords_channel (s : State) (i : Fin 128) : tableWords s 3 i.val = channelWords s.channels[i] :=
  congrArg (fun j : Fin 128 => channelWords s.channels[j]) (fin_ofNat_of_eq i _ rfl)

theorem tableWords_pump (s : State) (k : Fin 3) : tableWords s 13 k.val = pumpWords s.pumps[k] :=
  congrArg (fun j : Fin 3 => pumpWords s.pumps[j]) (fin_ofNat_of_eq k _ rfl)

theorem tableWords_cause (s : State) (i : Fin 128) : tableWords s 14 i.val = causeWords i s.causes[i] :=
  congrArg (fun j : Fin 128 => causeWords j s.causes[j]) (fin_ofNat_of_eq i _ rfl)

/-- A READ is answered at every authority, and changes nothing but the reply (R176, R177). -/
theorem read_reached {l : Authority} {r : ReqArgs} {s : State} (h : ReachedAt l r s) (table : Octet)
    {status : Status} {value : Word} (outcome : readOutcome table r s = (status, value)) :
    exec (.read table r) s = .next (prepare (replyTo table r status value) s) := by
  obtain ⟨a, -, handled⟩ := withAuthority_reached h table fun _ s =>
    prepare (replyTo table r (readOutcome table r s).1 (readOutcome table r s).2) s
  rw [outcome] at handled
  exact congrArg Host.Outcome.next handled

section outcome

variable {table : Octet} {r : ReqArgs} {s : State}

/-- The field is checked first (R177). -/
theorem readOutcome_unknown (unknown : (tableFields table.toNat r.index.toNat).length ≤ r.field.toNat) :
    readOutcome table r s = (.refusedUnknown, r.value) :=
  if_pos unknown

variable (known : r.field.toNat < (tableFields table.toNat r.index.toNat).length)
include known

theorem readOutcome_outside (outside : tableSize table.toNat ≤ r.index.toNat) :
    readOutcome table r s = (.refusedIndex, r.value) :=
  (if_neg (Nat.not_le.2 known)).trans (if_pos outside)

theorem readOutcome_given {v : Word} (inside : r.index.toNat < tableSize table.toNat)
    (word : (tableWords s table.toNat r.index.toNat)[r.field.toNat]? = some v) :
    readOutcome table r s = (.ok, v) := by
  have given : (tableWords s table.toNat r.index.toNat).getD r.field.toNat 0 = v := by
    rw [List.getD_eq_getElem?_getD, word, Option.getD_some]
  rw [← given]
  exact (if_neg (Nat.not_le.2 known)).trans (if_neg (Nat.not_le.2 inside))

end outcome

/-! ### The mode record (R180) -/

/-- The manual_stage that a value asks for is its second nibble (R180). -/
theorem askedStage_eq (w : Word) : askedStage w = w.toNat / 16 % 16 := by
  simp [askedStage, BitVec.extractLsb'_toNat, Nat.shiftRight_eq_div_pow]

/-- A write of the mode record is taken in every nacelle state, at its effective authority (R176, R180). -/
theorem modeWrite_taken {r : ReqArgs} {s : State} {a : Authority} (following : s.ring.mode = .following)
    (claimed : claimedAuthority r.claimed = some a) (field : r.field = 0) (index : r.index = 0) :
    exec (.modeWrite r) s = .next (writeMode (effectiveAuthority s.lines.serviceKey a) r s) := by
  obtain ⟨code, tag, index, field, value⟩ := r
  subst index field
  refine congrArg Host.Outcome.next ?_
  rw [inFollowing, if_pos following, writeRequest, withAuthority, claimed]
  rfl

section mode

variable {a : Authority} (w : Word) (m : Mode)

/-- At SERVICE every field is applied, manual_stage within 0 to 4 (R180). -/
theorem modeWritten_service (reaches : a.reaches .service = true) :
    let stage := w.toNat / 16 % 16
    modeWritten a w m =
      { runEnable := w.getLsbD 0, yawAuto := w.getLsbD 1, reportHold := w.getLsbD 2, coolingManual := w.getLsbD 3
        manualStage := if stage ≤ 4 then stage else 4, altered := false } ∧
      modeAdjusted a w = decide (4 < stage) ∧ modePartial a w m = false := by
  simp [modeWritten, modeAdjusted, modePartial, reaches, askedStage_eq, Nat.min_def]

/-- Beneath it the two cooling fields are left (R180). -/
theorem modeWritten_operator (beneath : a.reaches .service = false) :
    modeWritten a w m =
      { m with runEnable := w.getLsbD 0, yawAuto := w.getLsbD 1, reportHold := w.getLsbD 2, altered := false } ∧
      modeAdjusted a w = false ∧ modePartial a w m =
        decide (w.getLsbD 3 ≠ m.coolingManual ∨ w.toNat / 16 % 16 ≠ m.manualStage) := by
  refine ⟨?_, ?_, ?_⟩
  · simp [modeWritten, beneath]
  · simp [modeAdjusted, beneath]
  · simp [modePartial, beneath, askedStage_eq, bne, Bool.beq_eq_decide_eq]

end mode

end Sys2Proof.Machine

/-- Settles O36: the words are the tables' own in the order of R181, and the outcome of a read is that of its checks. -/
theorem readReturnsFieldUnchanged : Obligations.ReadReturnsFieldUnchanged := by
  refine ⟨fun s i => ⟨rfl, rfl, rfl, fun k n ch => forcedWord_getLsbD s⟩, fun s i => ?_, tableWords_pump, ?_⟩
  · have cause := tableWords_cause s i
    refine ⟨tableWords_channel s i, fun level => ?_, fun event => ?_, fun unassigned => ?_⟩
    · rw [cause, causeWords, level]
    · rw [cause, causeWords, event]
    · rw [cause, causeWords, unassigned]
  · intro table r s h fields reply
    exact ⟨fun unknown => read_reached h table (readOutcome_unknown unknown),
      fun known outside => read_reached h table (readOutcome_outside known outside),
      fun v known inside word => read_reached h table (readOutcome_given known inside word)⟩

/-- Settles O38: the two clauses are those of an effective authority that reaches SERVICE and of one that does not. -/
theorem modeWriteAppliesByAuthority : Obligations.ModeWriteAppliesByAuthority := by
  intro r s field index stage m done
  have taken {a : Authority} {n : Mode} {clamped part : Bool} (following : s.ring.mode = .following)
      (claimed : claimedAuthority r.claimed = some a)
      (outcome : let e := effectiveAuthority s.lines.serviceKey a
        modeWritten e r.value s.sup.mode = n ∧ modeAdjusted e r.value = clamped ∧
          modePartial e r.value s.sup.mode = part) : done n (if clamped then .adjusted else .ok) part := by
    obtain ⟨written, adjusted, partly⟩ := outcome
    show exec _ _ = _
    rw [modeWrite_taken following claimed field index, writeMode, written, adjusted, partly, prepare, replyTo, field,
      index]
  constructor
  · rintro ⟨following, a, claimed, reaches⟩
    have applied := taken following claimed (modeWritten_service r.value s.sup.mode reaches)
    have status : (if decide (4 < stage) = true then Status.adjusted else .ok) =
        if stage ≤ 4 then .ok else .adjusted := by
      by_cases fits : stage ≤ 4
      · rw [if_pos fits, if_neg (by simpa using fits)]
      · rw [if_neg fits, if_pos (by simpa using fits)]
    rw [status] at applied
    exact applied
  · rintro ⟨following, a, claimed, -⟩ below
    have beneath : (effectiveAuthority s.lines.serviceKey a).reaches .service = false :=
      Bool.eq_false_iff.2 fun reaches => below ⟨following, a, claimed, reaches⟩
    exact taken following claimed (modeWritten_operator r.value s.sup.mode beneath)

end


section
/-! PROOF. The write of the yaw settings: the figures that a form takes, the one field that changes, and a crossing of
the hard limit in any yaw state. -/

open Sys2Proof Sys2Proof.Machine

namespace Sys2Proof.Machine

/-! ### Figures and their codes (R178 steps 5 and 6, R179) -/

/-- Every figure of the form is a natural number. -/
def Form.natural : Form → Bool
  | .signed _ _ => false
  | _ => true

theorem take_nonneg {form : Form} {w : Word} {z : Int} {clamped : Bool} (natural : form.natural = true)
    (taken : form.take w = some (z, clamped)) : 0 ≤ z := by
  cases form with
  | signed lo hi => cases natural
  | unsigned lo hi =>
    obtain ⟨rfl, -⟩ := Prod.mk.inj (Option.some.inj taken)
    exact le_max_of_le_left (Int.natCast_nonneg lo)
  | enumerated n =>
    simp only [Form.take, Option.ite_none_right_eq_some, Option.some.injEq, Prod.mk.injEq] at taken
    omega
  | fixedSet l =>
    simp only [Form.take, Option.ite_none_right_eq_some, Option.some.injEq, Prod.mk.injEq] at taken
    omega
  | readOnly => cases taken

theorem take_channel {w : Word} {z : Int} {clamped : Bool} (taken : channelForm.take w = some (z, clamped)) :
    0 ≤ z ∧ z ≤ 127 := by
  obtain ⟨rfl, -⟩ := Prod.mk.inj (Option.some.inj taken)
  unfold clampInt
  omega

theorem wordOfNat_toNat {z : Int} (nonneg : 0 ≤ z) : wordOfNat z.toNat = wordOf z := by
  rw [wordOfNat, ← BitVec.ofInt_natCast, Int.toNat_of_nonneg nonneg, wordOf]

theorem channelOf_val {z : Int} (range : 0 ≤ z ∧ z ≤ 127) : (channelOf z).val = z.toNat := by
  have small : z.toNat < 128 := by omega
  simp [channelOf, Nat.mod_eq_of_lt small]

/-! ### The yaw settings (R107) -/

theorem yawSettingsConsistent_iff (c : YawSettings) : yawSettingsConsistent c = true ↔
    c.unwindTarget < c.unwindThreshold ∧ c.unwindThreshold ≤ c.twistHard ∧ c.releaseMin ≤ c.releaseMax :=
  decide_eq_true_iff

section yawField

variable {c : YawSettings} {f : Nat} {x : Field} {w : Word} {z : Int} {clamped : Bool}

/-- A field of the yaw settings is one of 26, none of them signed (R107). -/
theorem yawFields_natural (listed : yawFields[f]? = some x) :
    f < 26 ∧ x.form.natural = true ∧ (f ≤ 2 → x.form = channelForm) ∧ (f = 10 → x.form = .enumerated 2) := by
  have all : ∀ i : Fin 26, ∃ y, yawFields[i.val]? = some y ∧ y.form.natural = true ∧
      (i.val ≤ 2 → y.form = channelForm) ∧ (i.val = 10 → y.form = .enumerated 2) := by decide
  have place : f < 26 := (List.getElem?_eq_some_iff.1 listed).1
  obtain ⟨y, same, facts⟩ := all ⟨f, place⟩
  obtain rfl : y = x := Option.some.inj (same.symm.trans listed)
  exact ⟨place, facts⟩

/-- A write of one of the yaw settings changes the word of that field alone (R107). -/
theorem yawWords_yawWith (listed : yawFields[f]? = some x) (taken : x.form.take w = some (z, clamped)) :
    yawWords (yawWith c f z) = (yawWords c).set f (wordOf z) := by
  obtain ⟨place, natural, channel, mode⟩ := yawFields_natural listed
  have nonneg := take_nonneg natural taken
  have figure := wordOfNat_toNat nonneg
  have number (low : f ≤ 2) : (channelOf z).val = z.toNat := by
    rw [channel low] at taken
    exact channelOf_val (take_channel taken)
  have code (ten : f = 10) : releaseModeCode (if z.toNat = 0 then .fixed else .feedback) = z.toNat := by
    rw [mode ten] at taken
    simp only [Form.take, Option.ite_none_right_eq_some, Option.some.injEq, Prod.mk.injEq] at taken
    split
    · rename_i zero
      exact zero.symm
    · simp only [releaseModeCode]
      omega
  rw [← figure]
  obtain bottom | ⟨low, high⟩ | rfl | above : f ≤ 2 ∨ 3 ≤ f ∧ f ≤ 9 ∨ f = 10 ∨ 11 ≤ f := by omega
  · rw [← number bottom]
    interval_cases f <;> rfl
  · interval_cases f <;> rfl
  · rw [← code rfl]
    rfl
  · interval_cases f <;> rfl

end yawField

/-- twist_hard is field 22 (R107). -/
theorem yawWith_twistHard (c : YawSettings) {f : Nat} (z : Int) (other : f ≠ 22) :
    (yawWith c f z).twistHard = c.twistHard := by
  unfold yawWith
  split
  case h_23 => exact absurd rfl other
  all_goals rfl

/-- A write that keeps the orders of the thresholds and of the release bounds is taken, and is an occasion of the
hard-limit check; one of heading_channel drops the anchor (R107, R109, R112). -/
theorem writeYaw_taken {f : Nat} {z : Int} {s : State} (ordered : yawSettingsConsistent (yawWith s.yawCfg f z) = true) :
    writeYaw f z s = some (hardCheck (hardTwist s.yawCfg s.yaw.twist) { s with
      yawCfg := yawWith s.yawCfg f z
      yaw := if f = 1 then { s.yaw with anchor := none, reanchor := false } else s.yaw }) := by
  refine (if_pos ordered).trans ?_
  simp only [writeYawSettings, decide_eq_true_iff]

/-! ### A crossing of the hard limit from any yaw state (R112) -/

theorem hardCheck_quiet {before : Bool} {s : State}
    (quiet : before = true ∨ ¬ s.yawCfg.twistHard ≤ s.yaw.twist.natAbs) : hardCheck before s = s := by
  refine if_neg ?_
  rw [hardTwist, Bool.and_eq_true, decide_eq_true_iff]
  rintro ⟨began, hard⟩
  obtain rfl | free := quiet
  · cases began
  · exact free hard

theorem hardCheck_crosses {s : State} (hard : s.yawCfg.twistHard ≤ s.yaw.twist.natAbs) :
    hardCheck false s = hardCrossing s :=
  if_pos (decide_eq_true hard)

/-- What a crossing may touch: the yaw, the supervisor, the lines, the sections, and by TWIST_HARD the causes and
records. -/
def CrossingOnly (s u : State) : Prop :=
  ∃ yaw sup lines sects causes reports, u = { s with
    yaw := yaw, sup := sup, lines := lines, sects := sects, causes := causes, reports := reports }

namespace CrossingOnly

theorem trans {s t u : State} (h : CrossingOnly s t) (k : CrossingOnly t u) : CrossingOnly s u := by
  obtain ⟨_, _, _, _, _, _, rfl⟩ := h
  obtain ⟨_, _, _, _, _, _, rfl⟩ := k
  exact ⟨_, _, _, _, _, _, rfl⟩

theorem frame {s u : State} (h : CrossingOnly s u) : u = { s with
    yaw := u.yaw, sup := u.sup, lines := u.lines, sects := u.sects, causes := u.causes, reports := u.reports } := by
  obtain ⟨_, _, _, _, _, _, rfl⟩ := h
  rfl

end CrossingOnly

section crossed

variable (s : State)

/-- The yaw acts at a crossing on its runtime and BRAKE_HOLD alone (R112). -/
theorem yawAtCrossing_frame : ∃ yaw lines, yawAtCrossing s = { s with yaw := yaw, lines := lines } := by
  have held : ∃ yaw lines, yawToHeld s = { s with yaw := yaw, lines := lines } := ⟨_, _, yawToHeld_frame s⟩
  unfold yawAtCrossing
  cases s.yaw.mode with
  | slewing => exact ⟨_, _, rfl⟩
  | unwinding | jogging =>
    dsimp only
    split
    · exact ⟨_, _, rfl⟩
    · exact held
  | releasing | parked | unwindWait => exact held
  | stopping | braking | held => exact ⟨_, _, rfl⟩

/-- After it no motor drives, so that nothing is left to settle (R112, R127). -/
theorem yawAtCrossing_settled : unwindCheck (hardStop (yawAtCrossing s)) = yawAtCrossing s := by
  refine settleTwist_still _ ?_
  have held : ¬ inSlew (yawToHeld s).yaw = true := by
    rw [inSlew, yawToHeld_mode]
    exact Bool.noConfusion
  cases mode : s.yaw.mode with
  | slewing => simp [yawAtCrossing, mode, toStopping, putYaw, inSlew]
  | unwinding | jogging =>
    simp only [yawAtCrossing, mode]
    split
    · exact Bool.noConfusion
    · exact held
  | releasing | parked | unwindWait => simpa only [yawAtCrossing, mode] using held
  | stopping | braking | held => simp [yawAtCrossing, mode, inSlew]

theorem crossed_only (twist : Int) : CrossingOnly s (crossed twist s) :=
  .trans ⟨_, _, _, _, _, _, raise_frame CauseNo.twistHard .nacelleStop .none (twistDegrees twist) s⟩
    ⟨_, _, _, _, _, _, rfl⟩

theorem crossed_sects (twist : Int) : (crossed twist s).sects = s.sects := raise_sects ..

theorem crossed_mode (twist : Int) : (crossed twist s).sup.mode =
    { s.sup.mode with yawAuto := false, altered := s.sup.mode.altered || s.sup.mode.yawAuto } := by
  rw [crossed, clearYawAuto, raise_sup]

/-- What a crossing leaves in every case (R112, R172). -/
theorem hardCrossing_spec : CrossingOnly s (hardCrossing s) ∧
    (hardCrossing s).causes[CauseNo.twistHard].pending = true ∧ (hardCrossing s).sup.mode =
      { s.sup.mode with yawAuto := false, altered := s.sup.mode.altered || s.sup.mode.yawAuto } := by
  have pending : (crossed s.yaw.twist s).causes[CauseNo.twistHard].pending = true := raise_pending_self ..
  have stop := stopDemand_frame (.cause CauseNo.twistHard) (crossed s.yaw.twist s)
  obtain ⟨yaw, lines, acts⟩ := yawAtCrossing_frame (stopDemand (.cause CauseNo.twistHard) (crossed s.yaw.twist s))
  have whole : hardCrossing s = _ := acts
  refine ⟨(crossed_only s s.yaw.twist).trans (.trans ⟨_, _, _, _, _, _, stop⟩ ⟨_, _, _, _, _, _, acts⟩), ?_, ?_⟩
  · rw [whole, ← pending, ← stopDemand_causes (.cause CauseNo.twistHard) (crossed s.yaw.twist s)]
  · rw [whole, ← crossed_mode s s.yaw.twist, ← stopDemand_mode (.cause CauseNo.twistHard) (crossed s.yaw.twist s)]

/-- In OPERATING the nacelle is STOPPED with the crossing for its reason, and the yaw in HELD (R112, R124, R167; log
27). -/
theorem hardCrossing_operating_spec (operating : s.sup.nacelle = .operating) : let u := hardCrossing s
    u.sup.nacelle = .stopped ∧ u.sup.reason = .cause CauseNo.twistHard ∧ u.lines.stopOut = true ∧
      u.yaw.mode = .held ∧
      u.sects = s.sects.map fun a => if a.state = .online then { a with state := .held } else a := by
  have stops : hardCrossing s = _ := (yawAtCrossing_settled _).symm.trans (hardCrossing_operating s operating)
  rw [stops]
  refine ⟨?_, ?_, yawToHeld_stopOut _, yawToHeld_mode _, ?_⟩
  · rw [yawToHeld_sup]
    rfl
  · rw [yawToHeld_sup]
    rfl
  · rw [yawToHeld_sects, ← crossed_sects s s.yaw.twist]
    rfl

/-- Elsewhere the nacelle stays as it is, and the yaw acts by its state (R112). -/
theorem hardCrossing_other_spec (other : s.sup.nacelle ≠ .operating) : let u := hardCrossing s
    u.sup.nacelle = s.sup.nacelle ∧ u.sup.reason = s.sup.reason ∧ u.sects = s.sects ∧
      (inSlew s.yaw = true → u.yaw.mode = .stopping ∧ u.yaw.endMark = true) ∧
      (s.yaw.mode = .stopping ∨ s.yaw.mode = .braking → u.yaw = { s.yaw with endMark := true }) ∧
      (¬ inSlew s.yaw = true → ¬ (s.yaw.mode = .stopping ∨ s.yaw.mode = .braking) → u.yaw.mode = .held) := by
  obtain ⟨v, same⟩ : ∃ v, v = crossed s.yaw.twist s := ⟨_, rfl⟩
  have yaw : v.yaw = s.yaw := by rw [same, crossed_yaw]
  have acts : hardCrossing s = yawAtCrossing v := by rw [same, hardCrossing_other s other]
  obtain ⟨_, _, frame⟩ := yawAtCrossing_frame v
  have settled := yawAtCrossing_settled v
  dsimp only
  rw [acts, ← yaw]
  refine ⟨?_, ?_, ?_, fun slewing => ?_, fun braking => ?_, fun still free => ?_⟩
  · rw [frame, same]
    exact crossed_nacelle ..
  · rw [frame, same]
    exact crossed_reason ..
  · rw [frame, same]
    exact crossed_sects ..
  · rw [← settled, yawAtCrossing_slew v slewing, toStopping_true]
    exact ⟨rfl, rfl⟩
  · rw [← settled, yawAtCrossing_stopping v braking]
  · rw [not_or] at free
    rw [← settled, yawAtCrossing_rests v still free.1 free.2, yawToHeld_mode]

end crossed

end Sys2Proof.Machine

end


section
/-! PROOF. The write of the cooling settings: the one field that changes, and what its write does at once. -/

open Sys2Proof Sys2Proof.Machine

namespace Sys2Proof.Machine

/-! ### The cooling settings (R131) -/

theorem coolSettingsConsistent_iff (c : CoolSettings) : coolSettingsConsistent c = true ↔
    c.fanUp[0] < c.fanUp[1] ∧ c.fanUp[1] < c.fanUp[2] ∧ c.fanUp[2] < c.fanUp[3] ∧
      (∀ j : Fin 4, c.fanDown[j] < c.fanUp[j]) ∧ c.heatOn < c.heatOff ∧ c.dryLost < c.dryMargin := by
  simp [coolSettingsConsistent, Fin.forall_fin_succ, and_assoc]

section coolField

variable {c : CoolSettings} {k : Cool} {f : Nat} {x : Field} {w : Word} {z : Int} {clamped : Bool}

/-- The fields of the cooling settings whose figures are signed (R131). -/
def coolSigned : List Nat := [11, 12, 13, 14, 15, 16, 17, 18, 21, 22, 24, 25, 26, 28]

/-- A written field of the cooling table is one of its 29 settings (R131). -/
theorem coolFields_written (listed : coolFields[f]? = some x) (taken : x.form.take w = some (z, clamped)) :
    f < 29 ∧ (f ∉ coolSigned → 0 ≤ z) ∧ (f ≤ 2 → z ≤ 127) := by
  have all : ∀ i : Fin 39, ∃ y, coolFields[i.val]? = some y ∧ (29 ≤ i.val → y.form = .readOnly) ∧
      (i.val ∉ coolSigned → y.form.natural = true) ∧ (i.val ≤ 2 → y.form = channelForm) := by decide
  have place : f < 39 := (List.getElem?_eq_some_iff.1 listed).1
  obtain ⟨y, same, readOnly, natural, channel⟩ := all ⟨f, place⟩
  obtain rfl : y = x := Option.some.inj (same.symm.trans listed)
  refine ⟨Nat.lt_of_not_le fun runtime => ?_, fun unsigned => take_nonneg (natural unsigned) taken, fun low => ?_⟩
  · rw [readOnly runtime] at taken
    cases taken
  · rw [channel low] at taken
    exact (take_channel taken).2

theorem toList_four {α : Type} (v : Vector α 4) : v.toList = [v[0], v[1], v[2], v[3]] := by
  obtain ⟨⟨l⟩, size⟩ := v
  match l, size with
  | [_, _, _, _], _ => rfl

/-- A write of one of the cooling settings changes the word of that field alone (R131). -/
theorem coolWords_coolWith (listed : coolFields[f]? = some x) (taken : x.form.take w = some (z, clamped)) :
    coolWords (coolWith c f z) k = (coolWords c k).set f (wordOf z) := by
  obtain ⟨place, natural, low⟩ := coolFields_written listed taken
  have figure (unsigned : f ∉ coolSigned) : wordOfNat z.toNat = wordOf z := wordOfNat_toNat (natural unsigned)
  have number (bottom : f ≤ 2) (unsigned : f ∉ coolSigned) : wordOfChannel (channelOf z) = wordOf z := by
    rw [wordOfChannel, channelOf_val ⟨natural unsigned, low bottom⟩, figure unsigned]
  obtain bottom | above : f ≤ 2 ∨ 3 ≤ f := by omega
  · interval_cases f <;> simp [coolWords, coolWith, toList_four, number (by decide) (by decide)]
  · interval_cases f
    all_goals simp [coolWords, coolWith, toList_four]
    all_goals exact figure (by decide)

end coolField

/-! ### The coolant factor at a binding (R140) -/

/-- The cooling unit's runtime once T_in has been read as it stands (R140). -/
def coolantFormed (s : State) : Cool :=
  let tin := chanValue s s.coolCfg.tin
  let answer : Option Nat := tin.bind fun v => evalCurve s.curves[CurveNo.coolant] v
  let factor := answer.getD s.coolCfg.blind
  { s.cool with
    coolantFactor := factor, factor := min factor (s.coolCfg.pumpFactor.toList.getD (runningCount s) 0)
    blindMark := tin.isNone, fallbackMark := tin.isSome && answer.isNone }

/-- A T_in that is not usable rises COOLING_BLIND (R140). -/
theorem coolantNow_spec (s : State) :
    (∃ causes reports, coolantNow s = { s with cool := coolantFormed s, causes := causes, reports := reports }) ∧
      (chanValue s s.coolCfg.tin = none → (coolantNow s).causes[CauseNo.coolingBlind].pending = true) := by
  unfold coolantNow coolantFormed
  cases chanValue s s.coolCfg.tin with
  | none => exact ⟨⟨_, _, (coolantLoss_eq s).trans (raise_frame ..)⟩, fun _ => raise_pending_self ..⟩
  | some v => exact ⟨⟨_, _, rfl⟩, nofun⟩

/-! ### What a taken write does at once (R140, R143 to R146) -/

section written

variable {f : Nat} (s : State)

theorem coolSettingsWritten_blind : coolSettingsWritten 3 s = { s with cool :=
    if s.cool.blindMark = true ∨ s.cool.fallbackMark = true then { s.cool with
      coolantFactor := s.coolCfg.blind
      factor := min s.coolCfg.blind (s.coolCfg.pumpFactor.toList.getD (runningCount s) 0) }
    else s.cool } := by
  by_cases marked : s.cool.blindMark = true ∨ s.cool.fallbackMark = true
  · rw [if_pos marked]
    exact if_pos (by rwa [Bool.or_eq_true])
  · rw [if_neg marked]
    exact if_neg (by rwa [Bool.or_eq_true])

theorem coolSettingsWritten_pumpFactor (low : 4 ≤ f) (high : f ≤ 7) :
    coolSettingsWritten f s = formFactor s := by
  interval_cases f <;> rfl

theorem coolSettingsWritten_guard (low : 21 ≤ f) (high : f ≤ 23) : coolSettingsWritten f s = guardTest s := by
  interval_cases f <;> rfl

theorem coolSettingsWritten_heater (heater : f = 24 ∨ f = 25) : coolSettingsWritten f s = heaterJudge s := by
  obtain rfl | rfl := heater <;> rfl

/-- The other settings take effect when they are next read. -/
theorem coolSettingsWritten_later (low : 8 ≤ f) (later : f ≤ 20 ∨ f = 26 ∨ f = 27) :
    coolSettingsWritten f s = s := by
  unfold coolSettingsWritten
  split <;> first | omega | rfl

end written

/-! ### The guard, the heater and the dry permissive at a write -/

/-- When the condensation guard applies (R143). -/
theorem guardApplies_iff_exists (s : State) : guardApplies s = true ↔
    ∃ m a, s.cool.margin = some m ∧ chanValue s s.coolCfg.tin = some a ∧ m < s.coolCfg.guard ∧
      a < s.coolCfg.emergency := by
  unfold guardApplies
  cases s.cool.margin <;> cases chanValue s s.coolCfg.tin <;> simp

/-- The guard lowers the stage (R143). -/
theorem guardDrops_iff (s : State) : guardDrops s = true ↔
    (∃ m a, marginNow s = some m ∧ chanValue s s.coolCfg.tin = some a ∧ m < s.coolCfg.guard ∧
      a < s.coolCfg.emergency) ∧ s.coolCfg.guardCap < s.cool.commanded := by
  rw [guardDrops, Bool.and_eq_true, guardHolds_iff, decide_eq_true_iff]

/-- A permissive that is not lost is false already, or has a margin at or above dry_lost (R146). -/
theorem dryLosing_eq_false_iff (margin : Option Int) (s : State) : dryLosing margin s = false ↔
    s.cool.dry = false ∨ ∃ m, margin = some m ∧ s.coolCfg.dryLost ≤ m := by
  unfold dryLosing
  cases s.cool.dry <;> cases margin <;> simp

/-- The loss of the permissive at a write of dry_lost (R146). -/
theorem dryLossTest_loses {s : State} (losing : dryLosing s.cool.margin s = true) :
    (∃ causes reports, dryLossTest s =
      { s with cool := { s.cool with dry := false }, causes := causes, reports := reports }) ∧
      (s.cool.beenDry = true → (dryLossTest s).causes[CauseNo.dryLost].pending = true) := by
  rw [dryLossTest_eq, losing]
  cases s.cool.beenDry with
  | false => simp
  | true =>
    simp only [Bool.and_self, if_true, Bool.not_true, Bool.and_false]
    exact ⟨⟨_, _, raise_frame ..⟩, fun _ => raise_pending_self ..⟩

theorem dryLossTest_keeps {s : State} (stays : dryLosing s.cool.margin s = false) : dryLossTest s = s := by
  rw [dryLossTest_eq, stays]
  simp

/-! ### A binding of the dew margin's inputs (R144) -/

/-- The cooling unit's runtime at a binding, before the margin is formed (R140). -/
def coolAtBinding (f : Nat) (s : State) : Cool :=
  if f = 0 then coolantFormed s else s.cool

theorem coolAtBinding_rest (f : Nat) (s : State) : ∃ coolantFactor factor blindMark fallbackMark,
    coolAtBinding f s = { s.cool with
      coolantFactor := coolantFactor, factor := factor, blindMark := blindMark, fallbackMark := fallbackMark } := by
  unfold coolAtBinding
  split
  · exact ⟨_, _, _, _, rfl⟩
  · exact ⟨_, _, _, _, rfl⟩

/-- The margin is formed by the settings and channels alone, whatever the coolant factor (R144). -/
theorem marginTaken_atBinding (f : Nat) (s : State) : marginTaken { s with cool := coolAtBinding f s } =
    let k := coolAtBinding f s
    { marginTaken s with
      coolantFactor := k.coolantFactor, factor := k.factor, blindMark := k.blindMark
      fallbackMark := k.fallbackMark } := by
  obtain ⟨_, _, _, _, rest⟩ := coolAtBinding_rest f s
  rw [rest]
  rfl

section binding

variable {f : Nat} (s : State) (bound : f = 0 ∨ f = 1 ∨ f = 2)
include bound

/-- A binding forms the coolant factor where it binds T_in, and then the margin (R140, R144). -/
theorem coolSettingsWritten_binding : ∃ causes reports,
    coolSettingsWritten f s = formMargin { s with cool := coolAtBinding f s, causes := causes, reports := reports } ∧
    (f = 0 → chanValue s s.coolCfg.tin = none → causes[CauseNo.coolingBlind].pending = true) := by
  obtain rfl | rfl | rfl := bound
  · obtain ⟨⟨causes, reports, formed⟩, blind⟩ := coolantNow_spec s
    rw [formed] at blind
    exact ⟨causes, reports, congrArg formMargin formed, fun _ => blind⟩
  · exact ⟨_, _, rfl, nofun⟩
  · exact ⟨_, _, rfl, nofun⟩

/-- What a binding leaves (R140, R144 to R146). -/
theorem coolSettingsWritten_binding_spec :
    let u := coolSettingsWritten f s
    let k := coolAtBinding f s
    u = { s with
      cool := { marginTaken s with
        coolantFactor := k.coolantFactor, factor := k.factor, blindMark := k.blindMark
        fallbackMark := k.fallbackMark }
      causes := u.causes, reports := u.reports } ∧
    (f = 0 → chanValue s s.coolCfg.tin = none → u.causes[CauseNo.coolingBlind].pending = true) ∧
    (dryLosing (marginNow s) s = true → s.cool.beenDry = true → u.causes[CauseNo.dryLost].pending = true) := by
  obtain ⟨causes, reports, written, blind⟩ := coolSettingsWritten_binding s bound
  obtain ⟨_, _, _, _, rest⟩ := coolAtBinding_rest f s
  dsimp only
  rw [written, ← marginTaken_atBinding]
  refine ⟨formMargin_frame _, fun tin lost => (ReaderKept.formMargin _).mono _ (blind tin lost),
    fun losing been => formMargin_dryLost _ ?_ ?_⟩
  · rw [← losing, rest]
    rfl
  · rw [← been, rest]

end binding

end Sys2Proof.Machine

end


section
/-! PROOF. The checks of a write in order, and the writes of the ring, the curves, and the yaw and cooling settings. -/

open Sys2Proof Sys2Proof.Machine

namespace Sys2Proof.Machine

/-! ### The checks of a write (R178) -/

theorem indexTaken_iff (t i : Nat) : indexTaken t i = true ↔
    i < tableSize t ∧ (t = 14 → causeKind (Fin.ofNat 128 i) ≠ .unassigned) := by
  simp [indexTaken, imp_iff_not_or]

/-- A claimed authority that exists acts at OPERATOR at least (R176). -/
theorem reachedAt_operator {r : ReqArgs} {s : State} {a : Authority} (following : s.ring.mode = .following)
    (claimed : claimedAuthority r.claimed = some a) : ReachedAt .operator r s :=
  ⟨following, a, claimed, decide_eq_true (by cases effectiveAuthority s.lines.serviceKey a <;> decide)⟩

section refused

variable {l : Authority} {table : Octet} {r : ReqArgs} {s : State} {x : Field} (h : ReachedAt l r s)
include h

/-- Step 1 (R178). -/
theorem writeRequest_unknown (unknown : (tableFields table.toNat r.index.toNat)[r.field.toNat]? = none) :
    inFollowing (writeRequest table r) s = refuse table r .refusedUnknown s := by
  obtain ⟨following, a, claimed, -⟩ := h
  simp only [inFollowing, following, if_true, writeRequest, withAuthority, claimed, unknown]

variable (mode : table ≠ 15) (listed : (tableFields table.toNat r.index.toNat)[r.field.toNat]? = some x)
  (state : x.when.allows s = true)
include mode listed state

/-- Step 3 (R178). -/
theorem writeRequest_authority {a : Authority} (claimed : claimedAuthority r.claimed = some a)
    (barred : ¬ (x.form ≠ .readOnly ∧ (effectiveAuthority s.lines.serviceKey a).reaches x.level = true)) :
    inFollowing (writeRequest table r) s = refuse table r .refusedAuthority s := by
  by_cases readOnly : x.form = .readOnly
  · obtain ⟨a, -, checked⟩ := writeRequest_reached h mode listed
    rw [checked]
    exact (if_neg (by simp [state])).trans (if_pos (.inl readOnly))
  · exact writeRequest_beneath h.1 claimed mode listed state
      (Bool.eq_false_iff.2 fun reaches => barred ⟨readOnly, reaches⟩)

variable (level : x.level.rank ≤ l.rank) (writable : x.form ≠ .readOnly)
include level writable

/-- Step 4 (R178). -/
theorem writeRequest_outside (outside : indexTaken table.toNat r.index.toNat = false) :
    inFollowing (writeRequest table r) s = refuse table r .refusedIndex s := by
  obtain ⟨a, reaches, checked⟩ := writeRequest_reached h mode listed
  rw [checked, writeChecked, if_neg (by simp [state]), if_neg (by simp [writable, reaches_mono reaches level]),
    if_pos (by simp [outside])]

/-- Step 5 (R178). -/
theorem writeRequest_value (index : indexTaken table.toNat r.index.toNat = true)
    (bad : x.form.take r.value = none) :
    inFollowing (writeRequest table r) s = refuse table r .refusedValue s := by
  obtain ⟨a, reaches, checked⟩ := writeRequest_reached h mode listed
  rw [checked, writeChecked, if_neg (by simp [state]), if_neg (by simp [writable, reaches_mono reaches level]),
    if_neg (by simp [index]), bad]

end refused

/-! ### Points of a curve (R47) -/

section point

variable (c : Curve) (j : Fin 8) (z : Int)

theorem curveWith_abscissa : curveWith c (1 + j.val) z =
    { c with points := c.points.set j { c.points[j] with x := z } } := by
  have place : Fin.ofNat 8 (1 + j.val - 1) = j := fin_ofNat_of_eq j _ (by omega)
  exact (if_neg (by omega)).trans ((if_pos (by omega)).trans (congrArg (fun i : Fin 8 =>
    ({ c with points := c.points.set i { c.points[i] with x := z } } : Curve)) place))

theorem curveWith_ordinate : curveWith c (9 + j.val) z =
    { c with points := c.points.set j { c.points[j] with y := z.toNat } } := by
  have place : Fin.ofNat 8 (9 + j.val - 9) = j := fin_ofNat_of_eq j _ (by omega)
  exact (if_neg (by omega)).trans ((if_neg (by omega)).trans (congrArg (fun i : Fin 8 =>
    ({ c with points := c.points.set i { c.points[i] with y := z.toNat } } : Curve)) place))

theorem applyWrite_curve (k : Fin 5) (f : Nat) (s : State) : applyWrite 6 k.val f z s = writeCurve k f z s :=
  congrArg (writeCurve · f z s) (fin_ofNat_of_eq k _ rfl)

/-- A write of an ordinate is never refused for order (R47). -/
theorem writeCurve_ordinate (k : Fin 5) (s : State) : writeCurve k (9 + j.val) z s = some (s.setCurve k
    { s.curves[k] with points := s.curves[k].points.set j { s.curves[k].points[j] with y := z.toNat } }) := by
  unfold writeCurve
  rw [curveWith_ordinate]
  exact if_neg fun refused => absurd refused.1 (by omega)

end point

end Sys2Proof.Machine

/-- Settles O37: each taken write by its own table, and the checks in the order of R178. -/
theorem writeChecksInOrder : Obligations.WriteChecksInOrder := by
  refine ⟨fun z s => ⟨_, rfl, rfl, ?_⟩, fun k j z s => ?_, fun f z s x w clamped listed taken => ?_,
    fun f z s x w clamped listed taken => ?_, fun table r s a following claimed mode => ?_⟩
  · unfold estimateNow
    cases s.ring.estimate <;> rfl
  · intro c moved rising
    have order : curveOrdered moved = true ↔ rising := curveOrdered_iff _
    have abscissa := writeCurve_ordered k z s (f := 1 + j.val) (by omega)
    rw [curveWith_abscissa] at abscissa
    rw [applyWrite_curve, applyWrite_curve, abscissa]
    exact ⟨fun rises => if_pos (order.2 rises), fun falls => if_neg (mt order.1 falls), writeCurve_ordinate j z k s⟩
  · intro y c t sound hard slewing braking
    have consistent : yawSettingsConsistent c = true ↔ sound := yawSettingsConsistent_iff c
    have written (ok : sound) : applyWrite 10 0 f z s = some (hardCheck (hardTwist s.yawCfg y.twist) t) :=
      writeYaw_taken (consistent.2 ok)
    have twist : t.yaw.twist = y.twist := by
      simp only [t]
      split <;> rfl
    refine ⟨yawWords_yawWith listed taken, fun broken => if_neg (mt consistent.1 broken), fun ok quiet => ?_,
      fun ok free begins => ?_⟩
    · rw [written ok, hardCheck_quiet]
      refine quiet.imp decide_eq_true fun inside => ?_
      rwa [twist]
    · obtain rfl : f = 22 := by
        by_contra other
        exact free ((yawWith_twistHard s.yawCfg z other).ge.trans begins)
      have crosses : applyWrite 10 0 22 z s = some (hardCrossing t) := by
        rw [written ok, hardTwist, decide_eq_false free, hardCheck_crosses (s := t) begins]
      obtain ⟨only, pending, auto⟩ := hardCrossing_spec t
      refine ⟨_, crosses, rfl, pending, hardCrossing_twist t, auto, fun operating => ?_, fun other => ?_, only.frame⟩
      · exact hardCrossing_operating_spec t operating
      · obtain ⟨nacelle, reason, sects, stops, marks, holds⟩ := hardCrossing_other_spec t other
        exact ⟨nacelle, reason, sects, fun slews => stops ((inSlew_iff _).2 slews), marks,
          fun still => holds (mt (inSlew_iff _).1 still)⟩
  · intro k c t cooled sound bound pumping tin answer margin guarded stage heated stays
    have consistent : coolSettingsConsistent c = true ↔ sound := coolSettingsConsistent_iff c
    have formed (b : bound) : margin = marginNow t := (if_pos b).trans (marginNow_eq t).symm
    have kept (b : ¬ bound) : margin = k.margin := if_neg b
    have held : dryLosing margin t = false ↔ stays := dryLosing_eq_false_iff margin t
    have losing (lost : ¬ stays) : dryLosing margin t = true := by rwa [← held, Bool.not_eq_false] at lost
    clear_value margin
    refine ⟨coolWords_coolWith listed taken, fun broken => if_neg (mt consistent.1 broken), fun ok =>
      ⟨coolSettingsWritten f t, if_pos (consistent.2 ok), ?_, coolSettingsWritten_pumpFactor t, fun low high => ?_,
        fun heats => ?_, ?_, coolSettingsWritten_later t, fun b => ?_, fun lost been at_ => ?_⟩⟩
    · rintro rfl
      exact coolSettingsWritten_blind t
    · obtain rfl := kept (by omega)
      have applies : guardApplies t = true ↔ guarded := guardApplies_iff_exists t
      rw [coolSettingsWritten_guard t low high]
      exact ⟨fun drops => guardTest_drops (applies.2 drops.1) drops.2,
        fun free => guardTest_leaves fun drops => free ⟨applies.1 drops.1, drops.2⟩⟩
    · obtain rfl := kept (by omega)
      rw [coolSettingsWritten_heater t heats]
      rfl
    · rintro rfl
      obtain rfl := kept (by omega)
      refine ⟨fun still => dryLossTest_keeps (held.2 still), fun lost => ?_⟩
      obtain ⟨⟨_, _, frame⟩, -⟩ := dryLossTest_loses (s := t) (losing lost)
      rw [show coolSettingsWritten 28 t = _ from frame]
      exact ⟨rfl, rfl⟩
    · obtain rfl := formed b
      obtain ⟨frame, blind, -⟩ := coolSettingsWritten_binding_spec t b
      have drops : guardDrops t = true ↔ stage := guardDrops_iff t
      generalize coolSettingsWritten f t = u at frame blind ⊢
      rw [frame]
      refine ⟨rfl, rfl, fun drop => ?_, fun free => ?_, fun still => ?_, fun lost => ?_, fun other => ?_,
        fun zero => ?_, rfl⟩
      · exact ⟨if_pos (drops.2 drop), if_pos (drops.2 drop)⟩
      · exact ⟨if_neg (mt drops.1 free), if_neg (mt drops.1 free)⟩
      · simp [marginTaken, held.2 still, k, t]
      · simp [marginTaken, losing lost]
      · have same : coolAtBinding f t = k := if_neg other
        rw [same]
        exact ⟨rfl, rfl, rfl, rfl⟩
      · have same : coolAtBinding f t = coolantFormed t := if_pos zero
        rw [same]
        exact ⟨rfl, rfl, rfl, rfl, blind zero⟩
    · by_cases b : bound
      · obtain rfl := formed b
        exact (coolSettingsWritten_binding_spec t b).2.2 (losing lost) been
      · obtain rfl := kept b
        obtain rfl := at_.resolve_left b
        exact (dryLossTest_loses (s := t) (losing lost)).2 been
  · intro t i reply refused
    have atOperator := reachedAt_operator following claimed
    have replies {st : Status} (e : inFollowing (writeRequest table r) s = refuse table r st s) : refused st :=
      congrArg Host.Outcome.next e
    refine ⟨fun unknown => replies (writeRequest_unknown atOperator unknown), fun x listed => ?_⟩
    intro reached indexed
    have index : indexTaken t i = true ↔ indexed := indexTaken_iff t i
    have at_ (reach : reached) : ReachedAt x.level r s := ⟨following, a, claimed, reach.2⟩
    refine ⟨fun barred => replies (writeRequest_state atOperator mode listed barred), fun state beneath => replies ?_,
      fun state reach outside => replies ?_, fun state reach inside bad => replies ?_,
      fun z clamped state reach inside value => ?_⟩
    · exact writeRequest_authority atOperator mode listed state claimed beneath
    · exact writeRequest_outside (at_ reach) mode listed state (le_refl _) reach.1
        (Bool.eq_false_iff.2 (mt index.1 outside))
    · exact writeRequest_value (at_ reach) mode listed state (le_refl _) reach.1 (index.2 inside) bad
    · have checked := writeRequest_checked (at_ reach) mode listed (le_refl _) state reach.1 (index.2 inside) value
      refine ⟨fun breaks => replies ?_, fun u takes => congrArg Host.Outcome.next ?_⟩
      · rw [checked, show applyWrite _ _ _ z s = none from breaks]
      · rw [checked, show applyWrite _ _ _ z s = some u from takes]
        rfl

end


section
/-! PROOF. What a step does with the queue of commands, by what waits at its front. -/

open Sys2Proof Sys2Proof.Machine

namespace Sys2Proof.Machine

theorem step_of_pending_nil {s : State} (empty : s.pending = []) : step s = .next s := by
  unfold step
  rw [empty]

theorem step_of_pending_cons {s : State} {c : Instr} {rest : List Instr} (front : s.pending = c :: rest) :
    step s = exec c { s with pending := rest } := by
  unfold step
  rw [front]

end Sys2Proof.Machine

/-- Settles O1: the command put at the front is the one taken, which leaves the state as it was before. -/
theorem stepTakesFrontCommand : Obligations.StepTakesFrontCommand :=
  ⟨fun _ _ => step_of_pending_cons rfl, fun _ => step_of_pending_nil⟩

end
